-- ==== Sys2Proof/Word.lean ====
section
/-! DEFINITION. The widths of DCTR128 (00_scope R5, R6): the 128-bit data word, the byte, the 64-bit command word,
the 4-bit status code and the register index. -/

namespace Sys2Proof

/-- A 128-bit value: an unsigned integer below 2^128, bit 0 the least significant (00_scope R6). -/
abbrev Word := BitVec 128

/-- One byte of a 16-byte sequence (00_scope R7). -/
abbrev Byte := BitVec 8

/-- A command word, delivered whole on the CMD port (30_encoding R80). -/
abbrev CmdWord := BitVec 64

/-- A status code as the response and LASTERR carry it (60_exceptions R210). -/
abbrev Code := BitVec 4

/-- A data-register index, 0 to 7; every 3-bit value is legal (30_encoding R81). -/
abbrev RegIdx := Fin 8

end Sys2Proof
end

