-- ==== Sys2Proof/Syntax.lean ====
section
/-! DEFINITION. The instructions of DCTR128, one constructor per row of the opcode map (30_encoding R83), the fields of a
command word (R80) and the assembler's pseudo-instructions (R88). -/

namespace Sys2Proof

/-- One constructor per row of the opcode map, with exactly the fields the row marks "use" (30_encoding R83). Every value
of every field is legal (R81, R82), so every term of this type is a well-formed instruction. -/
inductive Instr where
  /-- NOP (43_transfer R193). -/
  | nop
  /-- LOAD rd (43_transfer R190). -/
  | load (rd : RegIdx)
  /-- READ rs1 (43_transfer R191). -/
  | read (rs1 : RegIdx)
  /-- RDSTAT (43_transfer R192). -/
  | rdstat
  /-- XOR rd, rs1, rs2 (40_arithmetic R110). -/
  | xor (rd rs1 rs2 : RegIdx)
  /-- ADD rd, rs1, rs2 (40_arithmetic R113). -/
  | add (rd rs1 rs2 : RegIdx)
  /-- ADDS rd, rs1, imm (40_arithmetic R116). -/
  | adds (rd rs1 : RegIdx) (imm : BitVec 32)
  /-- ROTL rd, rs1, imm (40_arithmetic R121). -/
  | rotl (rd rs1 : RegIdx) (imm : BitVec 32)
  /-- SETC rs1 (41_scrambler R141). -/
  | setc (rs1 : RegIdx)
  /-- SCRAM rd, rs1, rs2: rs1 holds keyX, rs2 keyY (41_scrambler R142). -/
  | scram (rd rs1 rs2 : RegIdx)
  /-- SETKEY rs1 (42_ctr R162). -/
  | setkey (rs1 : RegIdx)
  /-- KEYGEN rs1, rs2: rs1 holds keyX, rs2 keyY (42_ctr R163). -/
  | keygen (rs1 rs2 : RegIdx)
  /-- SETCTR rs1 (42_ctr R166). -/
  | setctr (rs1 : RegIdx)
  /-- GETCTR rd (42_ctr R167). -/
  | getctr (rd : RegIdx)
  /-- CTRX rd, rs1 (42_ctr R168). -/
  | ctrx (rd rs1 : RegIdx)
  deriving DecidableEq, Repr

/-- The fields of the one command format, CMD64 (30_encoding R80). -/
structure Fields where
  imm : BitVec 32
  op  : BitVec 8
  rd  : BitVec 3
  rs1 : BitVec 3
  rs2 : BitVec 3
  res : BitVec 15
  deriving DecidableEq, Repr

/-- The pseudo-instructions the assembler accepts (30_encoding R88); none has an opcode. -/
inductive Pseudo where
  /-- MOV rd, rs. -/
  | mov (rd rs : RegIdx)
  /-- INC rd. -/
  | inc (rd : RegIdx)
  /-- ROTR rd, rs, n. -/
  | rotr (rd rs : RegIdx) (n : BitVec 32)
  /-- SEEK rt, rs, k. -/
  | seek (rt rs : RegIdx) (k : BitVec 32)
  deriving DecidableEq, Repr

end Sys2Proof
end

