-- ==== Sys2Proof/WellFormed.lean ====
section
/-! DEFINITION. The well-formedness of a command word's fields (30_encoding R83, R84, R85): OP is listed, RES is zero, and
every field the opcode map marks "0" is zero. -/

namespace Sys2Proof

/-- One row of the opcode map's left half (30_encoding R83): OP, and which of RD, RS1, RS2 and IMM32 it uses. -/
structure OpRow where
  op      : BitVec 8
  usesRd  : Bool
  usesRs1 : Bool
  usesRs2 : Bool
  usesImm : Bool
  deriving DecidableEq, Repr

/-- The opcode map, in the spec's order (30_encoding R83). -/
def opRows : List OpRow :=
  [ ⟨0x00#8, false, false, false, false⟩,   -- NOP
    ⟨0x01#8, true,  false, false, false⟩,   -- LOAD
    ⟨0x02#8, false, true,  false, false⟩,   -- READ
    ⟨0x03#8, false, false, false, false⟩,   -- RDSTAT
    ⟨0x10#8, true,  true,  true,  false⟩,   -- XOR
    ⟨0x11#8, true,  true,  true,  false⟩,   -- ADD
    ⟨0x12#8, true,  true,  false, true⟩,    -- ADDS
    ⟨0x13#8, true,  true,  false, true⟩,    -- ROTL
    ⟨0x20#8, false, true,  false, false⟩,   -- SETC
    ⟨0x21#8, true,  true,  true,  false⟩,   -- SCRAM
    ⟨0x30#8, false, true,  false, false⟩,   -- SETKEY
    ⟨0x31#8, false, true,  true,  false⟩,   -- KEYGEN
    ⟨0x32#8, false, true,  false, false⟩,   -- SETCTR
    ⟨0x33#8, true,  false, false, false⟩,   -- GETCTR
    ⟨0x34#8, true,  true,  false, false⟩ ]  -- CTRX

/-- The fields fit one row: its OP, and zero in every field it does not use (30_encoding R84). -/
def OpRow.fits (row : OpRow) (f : Fields) : Bool :=
  row.op == f.op && (row.usesRd || f.rd == 0#3) && (row.usesRs1 || f.rs1 == 0#3) &&
    (row.usesRs2 || f.rs2 == 0#3) && (row.usesImm || f.imm == 0#32)

/-- A command word with these fields is legal (the opposite of 30_encoding R85). -/
def Fields.wellFormed (f : Fields) : Bool :=
  f.res == 0#15 && opRows.any (fun row => row.fits f)

end Sys2Proof
end

