-- ==== Sys2Proof/Decode.lean ====
section
/-! DEFINITION. The decoder (30_encoding R86), total on every 64-bit command word, and after it the encoder (R84). -/

namespace Sys2Proof

/-- Why a command word is illegal (the three conditions of 30_encoding R85; the names are the model's own, log 14). -/
inductive Illegal where
  /-- OP is none of the listed values. -/
  | unlistedOp
  /-- Bits 14:0 are not all zero. -/
  | reservedNonzero
  /-- A field the opcode does not use is not zero. -/
  | unusedFieldNonzero
  deriving DecidableEq, Repr

/-- What the decoder answers (30_encoding R86). -/
inductive Decoded where
  | instr (i : Instr)
  | illegal (why : Illegal)
  deriving DecidableEq, Repr

/-- The fields of a command word (30_encoding R80). -/
def fields (w : CmdWord) : Fields where
  imm := w.extractLsb' 32 32
  op  := w.extractLsb' 24 8
  rd  := w.extractLsb' 21 3
  rs1 := w.extractLsb' 18 3
  rs2 := w.extractLsb' 15 3
  res := w.extractLsb' 0 15

/-- The register a 3-bit field selects (30_encoding R81). -/
def regOf (b : BitVec 3) : RegIdx := b.toFin

/-- A failed need returns Illegal (30_encoding R86). -/
def need (ok : Bool) (i : Instr) : Decoded :=
  if ok then .instr i else .illegal .unusedFieldNonzero

/-- The decode function of 30_encoding R86, from the fields of a word. -/
def decodeFields (f : Fields) : Decoded :=
  let rd := regOf f.rd
  let rs1 := regOf f.rs1
  let rs2 := regOf f.rs2
  let noRd := f.rd == 0#3
  let noRs1 := f.rs1 == 0#3
  let noRs2 := f.rs2 == 0#3
  let noImm := f.imm == 0#32
  if f.res ≠ 0#15 then .illegal .reservedNonzero
  else if f.op = 0x00#8 then need (noRd && noRs1 && noRs2 && noImm) .nop
  else if f.op = 0x01#8 then need (noRs1 && noRs2 && noImm) (.load rd)
  else if f.op = 0x02#8 then need (noRd && noRs2 && noImm) (.read rs1)
  else if f.op = 0x03#8 then need (noRd && noRs1 && noRs2 && noImm) .rdstat
  else if f.op = 0x10#8 then need noImm (.xor rd rs1 rs2)
  else if f.op = 0x11#8 then need noImm (.add rd rs1 rs2)
  else if f.op = 0x12#8 then need noRs2 (.adds rd rs1 f.imm)
  else if f.op = 0x13#8 then need noRs2 (.rotl rd rs1 f.imm)
  else if f.op = 0x20#8 then need (noRd && noRs2 && noImm) (.setc rs1)
  else if f.op = 0x21#8 then need noImm (.scram rd rs1 rs2)
  else if f.op = 0x30#8 then need (noRd && noRs2 && noImm) (.setkey rs1)
  else if f.op = 0x31#8 then need (noRd && noImm) (.keygen rs1 rs2)
  else if f.op = 0x32#8 then need (noRd && noRs2 && noImm) (.setctr rs1)
  else if f.op = 0x33#8 then need (noRs1 && noRs2 && noImm) (.getctr rd)
  else if f.op = 0x34#8 then need (noRs2 && noImm) (.ctrx rd rs1)
  else .illegal .unlistedOp

/-- The decode function of 30_encoding R86, total on every command word. -/
def decode (w : CmdWord) : Decoded := decodeFields (fields w)

/-- The 3-bit field of a register index (30_encoding R81). -/
def regField (i : RegIdx) : BitVec 3 := BitVec.ofFin i

/-- The fields with the given OP and every other field 0; an instruction sets the ones it uses (30_encoding R84). -/
def opFields (op : BitVec 8) : Fields := ⟨0#32, op, 0#3, 0#3, 0#3, 0#15⟩

/-- The fields of an instruction (30_encoding R83, R84). -/
def Instr.toFields : Instr → Fields
  | .nop => opFields 0x00#8
  | .load rd => { opFields 0x01#8 with rd := regField rd }
  | .read rs1 => { opFields 0x02#8 with rs1 := regField rs1 }
  | .rdstat => opFields 0x03#8
  | .xor rd rs1 rs2 => { opFields 0x10#8 with rd := regField rd, rs1 := regField rs1, rs2 := regField rs2 }
  | .add rd rs1 rs2 => { opFields 0x11#8 with rd := regField rd, rs1 := regField rs1, rs2 := regField rs2 }
  | .adds rd rs1 imm => { opFields 0x12#8 with rd := regField rd, rs1 := regField rs1, imm := imm }
  | .rotl rd rs1 imm => { opFields 0x13#8 with rd := regField rd, rs1 := regField rs1, imm := imm }
  | .setc rs1 => { opFields 0x20#8 with rs1 := regField rs1 }
  | .scram rd rs1 rs2 => { opFields 0x21#8 with rd := regField rd, rs1 := regField rs1, rs2 := regField rs2 }
  | .setkey rs1 => { opFields 0x30#8 with rs1 := regField rs1 }
  | .keygen rs1 rs2 => { opFields 0x31#8 with rs1 := regField rs1, rs2 := regField rs2 }
  | .setctr rs1 => { opFields 0x32#8 with rs1 := regField rs1 }
  | .getctr rd => { opFields 0x33#8 with rd := regField rd }
  | .ctrx rd rs1 => { opFields 0x34#8 with rd := regField rd, rs1 := regField rs1 }

/-- The command word with the given fields, assembled as 30_encoding R84 writes it. -/
def Fields.pack (f : Fields) : CmdWord :=
  f.imm.setWidth 64 <<< 32 ||| f.op.setWidth 64 <<< 24 ||| f.rd.setWidth 64 <<< 21
    ||| f.rs1.setWidth 64 <<< 18 ||| f.rs2.setWidth 64 <<< 15 ||| f.res.setWidth 64

/-- The command word of an instruction (30_encoding R84). -/
def encode (i : Instr) : CmdWord := i.toFields.pack

/-- The instruction the decoder reads from the command word whose bits are `w`, bit 0 the least significant bit, and whose
bits from `nbits` on are 0 (the numbering of the opcode table). A command is one 64-bit word, delivered whole, so no byte
order applies (20_memory R51). -/
def decodeTableWord (nbits w : Nat) : Option Instr :=
  match decode (BitVec.ofNat 64 (w % 2 ^ nbits)) with
  | .instr i => some i
  | .illegal _ => none

end Sys2Proof
end

