-- ==== Sys2Proof/Machine/FixedWidth.lean ====
section
/-! DEFINITION. Fixed-width arithmetic on 128-bit values (40_arithmetic) and the scrambler function (41_scrambler R140):
the integer forms the instructions use, and the byte forms the spec gives as equivalent. -/

namespace Sys2Proof.Machine

/-- Byte k of a value, byte 0 the most significant: bits 127-8k to 120-8k (00_scope R7, 20_memory R50). -/
def byte (v : Word) (k : Nat) : Byte := v.extractLsb' (120 - 8 * k) 8

/-- The 16 bytes of a value, byte 0 first (00_scope R7). -/
def bytes (v : Word) : List Byte := (List.range 16).map (byte v)

/-- The value a byte sequence denotes, its first byte the most significant (00_scope R7). -/
def ofBytes (bs : List Byte) : Word := bs.foldl (fun v b => v <<< 8 ||| b.setWidth 128) 0#128

/-- Addition modulo 2^128 (40_arithmetic R113): the carry out of byte 0 is discarded. -/
def add128 (a b : Word) : Word := a + b

/-- The carry chain of 40_arithmetic R114 over pairs of bytes, the first pair the most significant: the final carry and the
bytes of the sum. -/
def carryChain : List (Byte × Byte) → Nat × List Byte
  | [] => (0, [])
  | (a, b) :: rest =>
    let low := carryChain rest
    let s := a.toNat + b.toNat + low.1
    (s / 256, BitVec.ofNat 8 s :: low.2)

/-- The byte form of addition: the carry chain, its final carry discarded (40_arithmetic R114). -/
def addBytes (a b : Word) : Word := ofBytes (carryChain ((bytes a).zip (bytes b))).2

/-- The 32-bit amount of ADDS, zero-extended (30_encoding R82). -/
def zextImm (imm : BitVec 32) : Word := imm.setWidth 128

/-- Rotate left by n bits, n taken modulo 128: the integer form of 40_arithmetic R120. -/
def rotl128 (v : Word) (n : Nat) : Word :=
  let r := n % 128
  if r = 0 then v else v <<< r ||| v >>> (128 - r)

/-- Byte k of the rotated value in the byte form of 40_arithmetic R120: a whole-byte rotation, then a sub-byte rotation
whose low bits come from the next less-significant byte (90_conflicts C2). -/
def rotlByte (v : Word) (n : Nat) (k : Nat) : Byte :=
  let r := n % 128
  let y := fun j => byte v ((j + r / 8) % 16)
  if r % 8 = 0 then y k else y k <<< (r % 8) ||| y ((k + 1) % 16) >>> (8 - r % 8)

/-- The byte form of the rotation (40_arithmetic R120). -/
def rotlBytes (v : Word) (n : Nat) : Word := ofBytes ((List.range 16).map (rotlByte v n))

/-- The key scrambler, its four stages in order (41_scrambler R140). -/
def scramble (kx ky c : Word) : Word :=
  let t1 := rotl128 kx 2
  let t2 := t1 ^^^ ky
  let t3 := add128 t2 c
  rotl128 t3 87

end Sys2Proof.Machine
end

