-- ==== Sys2Proof/Config.lean ====
section
/-! DEFINITION. What an implementation fixes and the spec leaves open (10_state R35): the external block cipher P_E,
the latency P_LAT and the reset contents P_RESET_CONTENTS. Each is a constant with no body, so nothing can be proved of
its value and every claim holds for every choice. -/

namespace Sys2Proof.Config

/-- What the external block cipher answers to one request (42_ctr R160): a keystream block, or Failure. -/
inductive CipherAnswer where
  | block (ks : Word)
  | failure
  deriving DecidableEq, Repr, Inhabited

/-- The registers whose contents reset leaves unspecified (10_state R34). -/
structure Contents where
  r   : Vector Word 8
  c   : Word
  key : Word
  ctr : Word
  deriving DecidableEq, Repr, Inhabited

/-- P_E (00_scope R5, 42_ctr R160): the answer to the request (key, block), a deterministic function of the two.
Free (assumption log 4). -/
opaque cipher : Word → Word → CipherAnswer

/-- P_LAT - 1, where P_LAT >= 1 is the latency of a command in clock cycles (70_reset R247). Free (assumption log 5). -/
opaque extraLatency : Nat

/-- P_RESET_CONTENTS for a reset during a run (10_state R34): what the data registers, C, KEY and CTR hold after it, from
the position of the reset in the host's list and from what they held. Free (assumption log 3). -/
opaque resetContents : Nat → Contents → Contents

end Sys2Proof.Config
end

