-- ==== Sys2Proof/Machine/State.lean ====
section
/-! DEFINITION. The state of one block (10_state R21, R33), the host's list of moves and its index (10_state R24), the
reasons a step can stop, and the state after reset (10_state R34). -/

namespace Sys2Proof.Machine

/-- One command transaction's payload: the command word and the data operand (00_scope R11). -/
structure Transaction where
  cmd : CmdWord
  din : Word
  deriving DecidableEq, Repr

/-- One response transaction: RSP_STATUS and DOUT (20_memory R52, 60_exceptions R213, R214). -/
structure Response where
  status : Code
  dout   : Word
  deriving DecidableEq, Repr

/-- The input pins sampled at one rising CLK edge (20_memory R52). -/
structure PinsIn where
  rst       : Bool
  cmdValid  : Bool
  cmd       : CmdWord
  din       : Word
  rspReady  : Bool
  eReqReady : Bool
  eRspValid : Bool
  eRspFail  : Bool
  eRspData  : Word
  deriving DecidableEq, Repr

/-- One move of the world outside the block (70_reset R246): a whole command transaction, from the command transfer to the
response transfer, or one rising clock edge with its input pins (a reset is an edge with RST = 1). -/
inductive HostMove where
  | command (t : Transaction)
  | edge (p : PinsIn)
  deriving DecidableEq, Repr

/-- The hidden state of 10_state R33: how far the command in progress has come. -/
inductive Phase where
  /-- No command in progress; CMD_READY = 1. -/
  | idle
  /-- The command is taken; `left` more edges until the one that performs it (70_reset R247). -/
  | working (left : Nat)
  /-- A CTRX offers its cipher request, not yet accepted (20_memory R54). -/
  | requesting
  /-- The cipher request is accepted and not yet answered (20_memory R54); an answer counts only here and at the edge that
  accepts it. -/
  | awaiting
  /-- The response is offered, not yet transferred (20_memory R53). -/
  | responding
  deriving DecidableEq, Repr

/-- Why the machine stops with a fault: never. The block has no trap and nothing stops it (60_exceptions R213, R216): a
failure is a status code and a next state. So the type has no constructor (safe). -/
inductive Fault where
  deriving DecidableEq, Repr

/-- Why a step has no meaning. Apart from `notModelled`, these are the broken duties that 93_implementation_defined gives
the treatment "refuse". -/
inductive Refusal where
  /-- Raised by `exec` for an instruction without a meaning; no arm of this model answers it. Safe. -/
  | notModelled (mnemonic : String)
  /-- Raised by a move in which the host drops or changes a command it has offered and the block has not yet taken
  (20_memory R53, 70_reset R245 (a); U10). Safe: the spec puts it outside the model. -/
  | hostChangedOffer
  /-- Raised by an edge whose cipher answer to an accepted request is not P_E's (20_memory R54, 70_reset R245; U12; logs 10
  and 22). Safe: the model does not go on. -/
  | cipherBrokeDuty
  deriving DecidableEq, Repr

/-- The state of one DCTR128 instance and of its host's list of moves. -/
structure State where
  /-- R0 to R7 (10_state R22). -/
  r       : Vector Word 8
  /-- RV: bit i is 1 iff R[i] has been written since reset (10_state R23). -/
  rv      : BitVec 8
  /-- C, the scrambler constant (10_state R27). -/
  c       : Word
  /-- CV: C is valid and locked (10_state R27). -/
  cv      : Bool
  /-- KEY, the normal key (10_state R28). -/
  key     : Word
  /-- KV: KEY is valid (10_state R28). -/
  kv      : Bool
  /-- CTR, the counter block (10_state R29). -/
  ctr     : Word
  /-- TV: CTR is valid (10_state R29). -/
  tv      : Bool
  /-- LASTERR (10_state R30). -/
  lastErr : Code
  /-- ERRSEEN (10_state R31). -/
  errSeen : Bool
  /-- The command in progress and the cipher request outstanding (10_state R33). -/
  phase   : Phase
  /-- The command word sampled at the last command transfer (20_memory R53). -/
  cmd     : CmdWord
  /-- DIN as sampled at the last command transfer (20_memory R53). -/
  din     : Word
  /-- The command the host offers and the block has not yet taken (20_memory R53). The model's own field (log 9). -/
  offer   : Option Transaction
  /-- The response of the last completed command since reset (60_exceptions R213, R214). -/
  rsp     : Option Response
  /-- The host's moves, the model's form of the program (10_state R24). -/
  host    : List HostMove
  /-- The index of the next move in `host` (10_state R24). -/
  n       : Nat
  deriving DecidableEq, Repr

/-- The state after reset (10_state R34, 70_reset R240). The contents of R0 to R7, C, KEY and CTR, which the spec leaves
unspecified, are zero (DESIGN CHOICE, log 2); so are the latches `cmd` and `din` (log 12). The host's list is empty (log 1). -/
def State.reset : State where
  r       := Vector.replicate 8 0#128
  rv      := 0#8
  c       := 0#128
  cv      := false
  key     := 0#128
  kv      := false
  ctr     := 0#128
  tv      := false
  lastErr := 0#4
  errSeen := false
  phase   := .idle
  cmd     := 0#64
  din     := 0#128
  offer   := none
  rsp     := none
  host    := []
  n       := 0

/-- The outcome of one step. -/
abbrev Result := Host.Outcome State Fault Refusal

end Sys2Proof.Machine
end

