-- ==== Sys2Proof/Machine/Flags.lean ====
section
/-! DEFINITION. The block's only status bits (10_state R25, R26): the status codes (60_exceptions R210), the valid bits of
the data registers and the status register STAT (10_state R32). There is no arithmetic flag. -/

namespace Sys2Proof.Machine

/-- The result classes of a command (60_exceptions R210); codes 8 to 15 are never produced. -/
inductive Status where
  | ok
  | illegal
  | uninit
  | cUnset
  | cLocked
  | keyUnset
  | ctrUnset
  | primFail
  deriving DecidableEq, Repr

/-- The 4-bit code of a status (60_exceptions R210). -/
def Status.code : Status → Code
  | .ok => 0#4
  | .illegal => 1#4
  | .uninit => 2#4
  | .cUnset => 3#4
  | .cLocked => 4#4
  | .keyUnset => 5#4
  | .ctrUnset => 6#4
  | .primFail => 7#4

/-- RV[i] (10_state R23). -/
def State.valid (s : State) (i : RegIdx) : Bool := s.rv.getLsbD i.val

/-- RV with bit i set (10_state R23). -/
def markValid (rv : BitVec 8) (i : RegIdx) : BitVec 8 := rv ||| 1#8 <<< i.val

/-- A one-bit field as a 32-bit value. -/
def zextBit (b : Bool) : BitVec 32 := (BitVec.ofBool b).setWidth 32

/-- STAT, the read-only status view, with its reserved bits 0 (10_state R32). -/
def State.stat (s : State) : BitVec 32 :=
  zextBit s.errSeen <<< 20 ||| s.lastErr.setWidth 32 <<< 16 ||| zextBit s.tv <<< 10
    ||| zextBit s.kv <<< 9 ||| zextBit s.cv <<< 8 ||| s.rv.setWidth 32

end Sys2Proof.Machine
end

