-- ==== Sys2Proof/Machine/Ops.lean ====
section
/-! DEFINITION. The named operations over the registers, and the completion of a command: a success (60_exceptions R214) and
a failure (R213). The block has no trap entry and no return from one (R216); `State.fail` is the one operation every failing
command goes through. There is no memory (20_memory R55). -/

namespace Sys2Proof.Machine

/-- R[i] (00_scope R9). -/
def State.reg (s : State) (i : RegIdx) : Word := s.r[i]

/-- `R[i] <- v`, which also sets RV[i] (00_scope R9, 10_state R23). -/
def State.setReg (s : State) (i : RegIdx) (v : Word) : State :=
  { s with r := s.r.set i v, rv := markValid s.rv i }

/-- `C <- v; CV <- 1` (41_scrambler R141). -/
def State.setConst (s : State) (v : Word) : State := { s with c := v, cv := true }

/-- `KEY <- v; KV <- 1` (42_ctr R162, R163). -/
def State.setKey (s : State) (v : Word) : State := { s with key := v, kv := true }

/-- `CTR <- v; TV <- 1` (42_ctr R166). -/
def State.setCtr (s : State) (v : Word) : State := { s with ctr := v, tv := true }

/-- `CTR <- (CTR + 1) mod 2^128` (42_ctr R164, R168). -/
def State.advanceCtr (s : State) : State := { s with ctr := add128 s.ctr (zextImm 1#32) }

/-- The response of a command: RSP_STATUS and DOUT (60_exceptions R213, R214). -/
def State.respond (s : State) (st : Status) (dout : Word) : State := { s with rsp := some ⟨st.code, dout⟩ }

/-- A command other than RDSTAT completes with OK: `LASTERR <- 0`, status 0 and DOUT (60_exceptions R214). -/
def State.succeed (s : State) (dout : Word) : State :=
  State.respond { s with lastErr := Status.ok.code } .ok dout

/-- A command completes with an error: LASTERR and ERRSEEN record it, DOUT = 0, and nothing else of the block changes
(60_exceptions R213). -/
def State.fail (s : State) (st : Status) : State :=
  State.respond { s with lastErr := st.code, errSeen := true } st 0#128

/-! The host's side: the command in progress, the offer and the list of moves. -/

/-- The command transfer: CMD and DIN are sampled, and the host's offer is taken (20_memory R53). -/
def State.accept (s : State) (x : Transaction) : State := { s with cmd := x.cmd, din := x.din, offer := none }

/-- How far the command in progress has come (10_state R33). -/
def State.setPhase (s : State) (p : Phase) : State := { s with phase := p }

/-- What the host offers and the block has not taken (20_memory R53). -/
def State.setOffer (s : State) (o : Option Transaction) : State := { s with offer := o }

/-- The index moves on to the next of the host's moves (10_state R24). -/
def State.moveOn (s : State) : State := { s with n := s.n + 1 }

end Sys2Proof.Machine
end

