-- ==== Sys2Proof/Machine/Operands.lean ====
section
/-! DEFINITION. The operand forms and the checks a command makes before it has its effect (60_exceptions R211, R212): a
source register must be valid, C must be loaded (or not yet loaded), KEY and CTR must be loaded. A check that fails ends the
command with its status; the first that fails is the one reported. -/

namespace Sys2Proof.Machine

/-- Go on if the condition holds, else fail with the status (60_exceptions R212, R213). -/
def State.require (s : State) (ok : Bool) (st : Status) (k : Result) : Result :=
  if ok then k else .next (s.fail st)

/-- A source register: UNINIT if RV[i] = 0, else go on with R[i] (60_exceptions R211). -/
def State.source (s : State) (i : RegIdx) (k : Word → Result) : Result :=
  s.require (s.valid i) .uninit (k (s.reg i))

/-- C as an operand: C_UNSET if CV = 0 (60_exceptions R211). -/
def State.constant (s : State) (k : Word → Result) : Result :=
  s.require s.cv .cUnset (k s.c)

/-- C as a destination: C_LOCKED if CV = 1 (60_exceptions R211). -/
def State.unlocked (s : State) (k : Result) : Result :=
  s.require (!s.cv) .cLocked k

/-- KEY as an operand: KEY_UNSET if KV = 0 (60_exceptions R211). -/
def State.cipherKey (s : State) (k : Word → Result) : Result :=
  s.require s.kv .keyUnset (k s.key)

/-- CTR as an operand: CTR_UNSET if TV = 0 (60_exceptions R211). -/
def State.counter (s : State) (k : Word → Result) : Result :=
  s.require s.tv .ctrUnset (k s.ctr)

end Sys2Proof.Machine
end

