-- ==== Sys2Proof/Machine/Arithmetic.lean ====
section
/-! DEFINITION. The meanings of XOR, ADD, ADDS and ROTL (40_arithmetic). -/

namespace Sys2Proof.Machine

/-- XOR: `R[rd] <- R[rs1] XOR R[rs2]` (40_arithmetic R110). -/
def execXor (rd rs1 rs2 : RegIdx) (s : State) : Result :=
  s.source rs1 fun a => s.source rs2 fun b => .next ((s.setReg rd (a ^^^ b)).succeed 0#128)

/-- ADD: `R[rd] <- (R[rs1] + R[rs2]) mod 2^128` (40_arithmetic R113). -/
def execAdd (rd rs1 rs2 : RegIdx) (s : State) : Result :=
  s.source rs1 fun a => s.source rs2 fun b => .next ((s.setReg rd (add128 a b)).succeed 0#128)

/-- ADDS: `R[rd] <- (R[rs1] + zext_128(IMM32)) mod 2^128` (40_arithmetic R116). -/
def execAdds (rd rs1 : RegIdx) (imm : BitVec 32) (s : State) : Result :=
  s.source rs1 fun a => .next ((s.setReg rd (add128 a (zextImm imm))).succeed 0#128)

/-- ROTL: `R[rd] <- rotl128(R[rs1], IMM32)` (40_arithmetic R121). -/
def execRotl (rd rs1 : RegIdx) (imm : BitVec 32) (s : State) : Result :=
  s.source rs1 fun a => .next ((s.setReg rd (rotl128 a imm.toNat)).succeed 0#128)

end Sys2Proof.Machine
end

