-- ==== Sys2Proof/Machine/Ctr.lean ====
section
/-! DEFINITION. The meanings of SETKEY, KEYGEN, SETCTR, GETCTR and CTRX (42_ctr). -/

namespace Sys2Proof.Machine

/-- SETKEY: `KEY <- R[rs1]; KV <- 1` (42_ctr R162). -/
def execSetkey (rs1 : RegIdx) (s : State) : Result :=
  s.source rs1 fun v => .next ((s.setKey v).succeed 0#128)

/-- KEYGEN: `KEY <- scramble(R[rs1], R[rs2], C); KV <- 1` (42_ctr R163). -/
def execKeygen (rs1 rs2 : RegIdx) (s : State) : Result :=
  s.source rs1 fun kx => s.source rs2 fun ky => s.constant fun c =>
    .next ((s.setKey (scramble kx ky c)).succeed 0#128)

/-- SETCTR: `CTR <- R[rs1]; TV <- 1` (42_ctr R166). -/
def execSetctr (rs1 : RegIdx) (s : State) : Result :=
  s.source rs1 fun v => .next ((s.setCtr v).succeed 0#128)

/-- GETCTR: `R[rd] <- CTR` (42_ctr R167). -/
def execGetctr (rd : RegIdx) (s : State) : Result :=
  s.counter fun v => .next ((s.setReg rd v).succeed 0#128)

/-- What CTRX does with the cipher's one answer: PRIM_FAIL on Failure, else `R[rd] <- input XOR ks` and the counter moves on
(42_ctr R168, R170). -/
def State.applyKeystream (s : State) (rd : RegIdx) (input : Word) (answer : Config.CipherAnswer) : Result :=
  match answer with
  | .failure => .next (s.fail .primFail)
  | .block ks => .next (((s.setReg rd (input ^^^ ks)).advanceCtr).succeed 0#128)

/-- CTRX with the cipher as an argument (00_scope R5, R11; 42_ctr R168). The cipher is asked only when every other check has
passed (60_exceptions R212). -/
def ctrxWith (E : Word → Word → Config.CipherAnswer) (rd rs1 : RegIdx) (s : State) : Result :=
  s.source rs1 fun v => s.cipherKey fun key => s.counter fun ctr => s.applyKeystream rd v (E key ctr)

/-- CTRX: transform one block in CTR mode and advance the counter (42_ctr R168). -/
def execCtrx (rd rs1 : RegIdx) (s : State) : Result :=
  ctrxWith Config.cipher rd rs1 s

end Sys2Proof.Machine
end

