-- ==== Sys2Proof/Machine/Scrambler.lean ====
section
/-! DEFINITION. The meanings of SETC and SCRAM (41_scrambler). -/

namespace Sys2Proof.Machine

/-- SETC: `C <- R[rs1]; CV <- 1`, once (41_scrambler R141). -/
def execSetc (rs1 : RegIdx) (s : State) : Result :=
  s.source rs1 fun v => s.unlocked (.next ((s.setConst v).succeed 0#128))

/-- SCRAM: `R[rd] <- scramble(R[rs1], R[rs2], C)` (41_scrambler R142). -/
def execScram (rd rs1 rs2 : RegIdx) (s : State) : Result :=
  s.source rs1 fun kx => s.source rs2 fun ky => s.constant fun c =>
    .next ((s.setReg rd (scramble kx ky c)).succeed 0#128)

end Sys2Proof.Machine
end

