-- ==== Sys2Proof/Machine/Transfer.lean ====
section
/-! DEFINITION. The meanings of NOP, LOAD, READ and RDSTAT (43_transfer). -/

namespace Sys2Proof.Machine

/-- NOP: nothing but a success; it clears LASTERR, not ERRSEEN (43_transfer R193). -/
def execNop (s : State) : Result :=
  .next (s.succeed 0#128)

/-- LOAD: `R[rd] <- DIN` (43_transfer R190). -/
def execLoad (rd : RegIdx) (s : State) : Result :=
  .next ((s.setReg rd s.din).succeed 0#128)

/-- READ: `DOUT <- R[rs1]` (43_transfer R191). -/
def execRead (rs1 : RegIdx) (s : State) : Result :=
  s.source rs1 fun v => .next (s.succeed v)

/-- RDSTAT: `DOUT <- zext_128(STAT)`, STAT as it stood before; LASTERR and ERRSEEN stay (43_transfer R192). -/
def execRdstat (s : State) : Result :=
  .next (s.respond .ok (s.stat.setWidth 128))

end Sys2Proof.Machine
end

