-- ==== Sys2Proof/Machine/Dispatch.lean ====
section
/-! DEFINITION. One instruction's meaning, one arm per constructor. -/

namespace Sys2Proof.Machine

def exec (i : Instr) (s : State) : Host.Outcome State Fault Refusal :=
  match i with
  | .nop => Sys2Proof.Machine.execNop s
  | .load rd => Sys2Proof.Machine.execLoad rd s
  | .read rs1 => Sys2Proof.Machine.execRead rs1 s
  | .rdstat => Sys2Proof.Machine.execRdstat s
  | .xor rd rs1 rs2 => Sys2Proof.Machine.execXor rd rs1 rs2 s
  | .add rd rs1 rs2 => Sys2Proof.Machine.execAdd rd rs1 rs2 s
  | .adds rd rs1 imm => Sys2Proof.Machine.execAdds rd rs1 imm s
  | .rotl rd rs1 imm => Sys2Proof.Machine.execRotl rd rs1 imm s
  | .setc rs1 => Sys2Proof.Machine.execSetc rs1 s
  | .scram rd rs1 rs2 => Sys2Proof.Machine.execScram rd rs1 rs2 s
  | .setkey rs1 => Sys2Proof.Machine.execSetkey rs1 s
  | .keygen rs1 rs2 => Sys2Proof.Machine.execKeygen rs1 rs2 s
  | .setctr rs1 => Sys2Proof.Machine.execSetctr rs1 s
  | .getctr rd => Sys2Proof.Machine.execGetctr rd s
  | .ctrx rd rs1 => Sys2Proof.Machine.execCtrx rd rs1 s

end Sys2Proof.Machine
end

