-- ==== Sys2Proof/Machine/Run.lean ====
section
/-! DEFINITION. A whole command: its transfer into the block, its decoding and its execution (60_exceptions R215). -/

namespace Sys2Proof.Machine

/-- Change the next state of an outcome, if there is one. -/
def mapNext (f : State → State) : Result → Result
  | .next s => .next (f s)
  | .fault r => .fault r
  | .refused r => .refused r

/-- Perform the command the block has taken: an illegal word completes with ILLEGAL (30_encoding R85, 60_exceptions R213),
a legal one has its instruction's meaning (R215). -/
def runCommand (s : State) : Result :=
  match decode s.cmd with
  | .instr i => exec i s
  | .illegal _ => .next (s.fail .illegal)

/-- The host keeps an offered command up, unchanged, until it is taken (20_memory R53, 70_reset R245 (a)): what it offers now
is what it offered before, if that has not been taken. -/
def State.keepsOffer (s : State) (now : Option Transaction) : Bool :=
  s.offer == none || s.offer == now

/-- A whole command transaction, from the command transfer to the response transfer (00_scope R11, 20_memory R60). While a
command is in progress CMD_READY is 0 and no command is taken (R53): then nothing happens and the host's list does not move
on (log 8). -/
def commandMove (t : Transaction) (s : State) : Result :=
  if s.phase = .idle then
    if s.keepsOffer (some t) then mapNext State.moveOn (runCommand (s.accept t))
    else .refused .hostChangedOffer
  else .next s

end Sys2Proof.Machine
end

