-- ==== Sys2Proof/Machine/Signals.lean ====
section
/-! DEFINITION. The signal level: the block's output pins, one rising clock edge, the handshakes of the CMD, RSP and E_REQ
channels (20_memory R52 to R54), reset (70_reset R240, R242) and latency (R247). -/

namespace Sys2Proof.Machine

/-- The output pins. A channel's payload is given only while its VALID is 1: `none` is VALID = 0, with the payload left open
(20_memory R52, 93_implementation_defined U9, log 13). -/
structure PinsOut where
  /-- CMD_READY. -/
  cmdReady : Bool
  /-- RSP_VALID, with RSP_STATUS and DOUT. -/
  rsp      : Option Response
  /-- E_REQ_VALID, with E_KEY and E_BLK. -/
  eReq     : Option (Word × Word)
  deriving DecidableEq, Repr

/-- The outputs in a cycle with the given RST: all VALID and READY are 0 while RST = 1 (70_reset R240). -/
def State.outputs (s : State) (rst : Bool) : PinsOut where
  cmdReady := !rst && s.phase == .idle
  rsp      := if !rst && s.phase == .responding then s.rsp else none
  eReq     := if !rst && s.phase == .requesting then some (s.key, s.ctr) else none

/-- The command the host offers in this cycle (20_memory R52). -/
def PinsIn.offered (p : PinsIn) : Option Transaction :=
  if p.cmdValid then some ⟨p.cmd, p.din⟩ else none

/-- The cipher's answer on the pins: E_RSP_FAIL = 1 is Failure, and E_RSP_DATA is then ignored (20_memory R52). -/
def PinsIn.answer (p : PinsIn) : Config.CipherAnswer :=
  if p.eRspFail then .failure else .block p.eRspData

/-- The registers whose contents reset leaves unspecified. -/
def State.contents (s : State) : Config.Contents := ⟨s.r, s.c, s.key, s.ctr⟩

/-- A rising edge with RST = 1: every valid bit, LASTERR and ERRSEEN become 0, the command in progress and the cipher request
are abandoned, no response is left (70_reset R240, R242). The contents of R0 to R7, C, KEY and CTR are the free value
P_RESET_CONTENTS (log 3). -/
def State.resetEdge (s : State) : State :=
  let free := Config.resetContents s.n s.contents
  { s with
    r := free.r, rv := 0#8, c := free.c, cv := false, key := free.key, kv := false, ctr := free.ctr, tv := false,
    lastErr := 0#4, errSeen := false, phase := .idle, offer := none, rsp := none }

/-- The command in progress is a CTRX that passes every check before PRIM_FAIL, so it asks the cipher (20_memory R54). -/
def State.asksCipher (s : State) : Bool :=
  match decode s.cmd with
  | .instr (.ctrx _ rs1) => s.valid rs1 && s.kv && s.tv
  | _ => false

/-- Perform the command and offer its response (60_exceptions R215, 20_memory R53; log 6). -/
def State.finish (s : State) : Result :=
  mapNext (fun t => t.setPhase .responding) (runCommand s)

/-- The cipher answers: it must answer as P_E does (70_reset R245; U12, log 10), and CTRX completes with that answer. -/
def State.takeAnswer (s : State) (p : PinsIn) : Result :=
  if p.answer = Config.cipher s.key s.ctr then s.finish else .refused .cipherBrokeDuty

/-- What the block does at an edge without reset, by its phase (20_memory R53, R54). An answer of the cipher while no request
is out (accepted, at this edge or before it, and not answered) is ignored (70_reset R242; U13): a late answer to a request that a reset abandoned
changes nothing, also while a later request is on offer. DESIGN CHOICE: an answer at the edge that accepts the request is taken
(log 11); a second answer to a request already answered, which U12 would refuse, is ignored (log 21); a late answer once a later
request is accepted is held to be that request's (log 22). -/
def State.edgeByPhase (s : State) (p : PinsIn) : Result :=
  match s.phase with
  | .idle =>
    if p.cmdValid then .next ((s.accept ⟨p.cmd, p.din⟩).setPhase (.working Config.extraLatency)) else .next s
  | .working (left + 1) => .next (s.setPhase (.working left))
  | .working 0 => if s.asksCipher then .next (s.setPhase .requesting) else s.finish
  | .requesting =>
    if p.eReqReady then
      if p.eRspValid then s.takeAnswer p else .next (s.setPhase .awaiting)
    else .next s
  | .awaiting => if p.eRspValid then s.takeAnswer p else .next s
  | .responding => if p.rspReady then .next (s.setPhase .idle) else .next s

/-- One rising CLK edge with the given input pins (20_memory R52, R53; 70_reset R240). -/
def clockEdge (p : PinsIn) (s : State) : Result :=
  if p.rst then .next s.resetEdge
  else if s.keepsOffer p.offered then (s.setOffer p.offered).edgeByPhase p
  else .refused .hostChangedOffer

/-- A run of edges, stopping at the first that has no next state. -/
def clockEdges : List PinsIn → State → Result
  | [], s => .next s
  | p :: ps, s =>
    match clockEdge p s with
    | .next t => clockEdges ps t
    | .fault r => .fault r
    | .refused r => .refused r

/-- One clock edge as a move of the host's list. -/
def edgeMove (p : PinsIn) (s : State) : Result :=
  mapNext State.moveOn (clockEdge p s)

end Sys2Proof.Machine
end

