-- ==== Sys2Proof/Machine/Step.lean ====
section
/-! DEFINITION. One step: the next move of the host's list (10_state R24, 70_reset R246). -/

namespace Sys2Proof.Machine

/-- One step. With no move left the block is idle or waits, and keeps its state (60_exceptions R235). -/
def step (s : State) : Host.Outcome State Fault Refusal :=
  match s.host[s.n]? with
  | none => .next s
  | some (.command t) => commandMove t s
  | some (.edge p) => edgeMove p s

/-- The state whose next step takes and runs the command word with bits `w` (those from `nbits` on are 0): the host's list is
that one command, with DIN = 0, and the block is ready for it (log 1). -/
def State.withFetchWord (s : State) (nbits w : Nat) : State :=
  { s with phase := .idle, offer := none, n := 0, host := [.command ⟨BitVec.ofNat 64 (w % 2 ^ nbits), 0#128⟩] }

end Sys2Proof.Machine
end

