-- ==== Sys2Proof/Machine/Assembler.lean ====
section
/-! DEFINITION. The assembler's syntax (30_encoding R87) and the expansion of the pseudo-instructions (R88): one line of
text, as characters, to command words, each with the DIN payload the line gives it. -/

namespace Sys2Proof.Machine

/-- The exact expansion of a pseudo-instruction (30_encoding R88). -/
def expandPseudo : Pseudo → List Instr
  | .mov rd rs => [.rotl rd rs 0#32]
  | .inc rd => [.adds rd rd 1#32]
  | .rotr rd rs n => [.rotl rd rs (BitVec.ofNat 32 ((128 - n.toNat % 128) % 128))]
  | .seek rt rs k => [.adds rt rs k, .setctr rt]

/-- One assembled command: its word, and the DIN payload where the line gives one (30_encoding R87). -/
structure AsmCommand where
  word : CmdWord
  din  : Option Word
  deriving DecidableEq, Repr

/-- Blanks between tokens (log 15). -/
def isBlank (ch : Char) : Bool := ch == ' ' || ch == '\t'

/-- A text without the blanks around it. -/
def trimBlanks (cs : List Char) : List Char :=
  ((cs.dropWhile isBlank).reverse.dropWhile isBlank).reverse

/-- A line without its comment: a semicolon starts one (30_encoding R87). -/
def dropComment (cs : List Char) : List Char := cs.takeWhile (· != ';')

/-- The parts of a text between separators, each without the blanks around it. -/
def splitAtChar (sep : Char) (cs : List Char) : List (List Char) :=
  let parts := cs.foldr
    (fun ch acc => if ch == sep then ([] : List Char) :: acc else
      match acc with
      | [] => [[ch]]
      | part :: rest => (ch :: part) :: rest)
    [[]]
  parts.map trimBlanks

/-- The value of a digit in the given base, 10 or 16 (both cases of a hex letter, log 15). -/
def digitValue (base : Nat) (ch : Char) : Option Nat :=
  let v :=
    if '0' ≤ ch ∧ ch ≤ '9' then some (ch.toNat - '0'.toNat)
    else if 'a' ≤ ch ∧ ch ≤ 'f' then some (ch.toNat - 'a'.toNat + 10)
    else if 'A' ≤ ch ∧ ch ≤ 'F' then some (ch.toNat - 'A'.toNat + 10)
    else none
  match v with
  | some d => if d < base then some d else none
  | none => none

/-- The value of a non-empty list of digits. -/
def digitsValue (base : Nat) (cs : List Char) : Option Nat :=
  match cs with
  | [] => none
  | _ => cs.foldl (fun acc ch => acc.bind fun v => (digitValue base ch).map fun d => v * base + d) (some 0)

/-- An unsigned number: decimal, or hex after `0x` (30_encoding R87). -/
def parseNumber (cs : List Char) : Option Nat :=
  match cs with
  | '0' :: 'x' :: hex => digitsValue 16 hex
  | _ => digitsValue 10 cs

/-- An immediate, 0 to 4294967295 (30_encoding R87). -/
def parseImm (cs : List Char) : Option (BitVec 32) :=
  (parseNumber cs).bind fun v => if v ≤ 4294967295 then some (BitVec.ofNat 32 v) else none

/-- A register, r0 to r7 (30_encoding R87). -/
def parseReg (cs : List Char) : Option RegIdx :=
  match cs with
  | ['r', d] => (digitValue 10 d).bind fun v => if h : v < 8 then some ⟨v, h⟩ else none
  | _ => none

/-- The DIN payload of a LOAD line: `0x` and 32 hex digits (30_encoding R87). -/
def parsePayload (cs : List Char) : Option Word :=
  match cs with
  | '0' :: 'x' :: hex => if hex.length = 32 then (digitsValue 16 hex).map (BitVec.ofNat 128) else none
  | _ => none

/-- A text cut at its first `<-`; the second part is absent if there is none. -/
def cutArrow : List Char → List Char × Option (List Char)
  | [] => ([], none)
  | '<' :: '-' :: rest => ([], some rest)
  | ch :: rest => let p := cutArrow rest; (ch :: p.1, p.2)

/-- A text cut at its first `<-`, each part without the blanks around it. Blanks inside a part stay, so `r 2` is no register
here either (DESIGN CHOICE, log 15). -/
def splitArrow (cs : List Char) : List Char × Option (List Char) :=
  let p := cutArrow cs
  (trimBlanks p.1, p.2.map trimBlanks)

/-- Instructions without a payload on their lines. -/
def asmWords (is : List Instr) : List AsmCommand := is.map fun i => ⟨encode i, none⟩

/-- The one operand of LOAD: the register, and the payload where it is written (30_encoding R87). -/
def parseLoad (cs : List Char) : Option (List AsmCommand) :=
  let p := splitArrow cs
  (parseReg p.1).bind fun rd =>
    match p.2 with
    | none => some [⟨encode (.load rd), none⟩]
    | some payload => (parsePayload payload).map fun v => [⟨encode (.load rd), some v⟩]

/-- A mnemonic with one register operand. -/
def asm1 (mk : RegIdx → List Instr) (ops : List (List Char)) : Option (List AsmCommand) :=
  match ops with
  | [a] => (parseReg a).map fun x => asmWords (mk x)
  | _ => none

/-- A mnemonic with two register operands. -/
def asm2 (mk : RegIdx → RegIdx → List Instr) (ops : List (List Char)) : Option (List AsmCommand) :=
  match ops with
  | [a, b] => (parseReg a).bind fun x => (parseReg b).map fun y => asmWords (mk x y)
  | _ => none

/-- A mnemonic with three register operands. -/
def asm3 (mk : RegIdx → RegIdx → RegIdx → List Instr) (ops : List (List Char)) : Option (List AsmCommand) :=
  match ops with
  | [a, b, c] => (parseReg a).bind fun x => (parseReg b).bind fun y => (parseReg c).map fun z => asmWords (mk x y z)
  | _ => none

/-- A mnemonic with two register operands and an immediate. -/
def asmImm (mk : RegIdx → RegIdx → BitVec 32 → List Instr) (ops : List (List Char)) : Option (List AsmCommand) :=
  match ops with
  | [a, b, c] => (parseReg a).bind fun x => (parseReg b).bind fun y => (parseImm c).map fun z => asmWords (mk x y z)
  | _ => none

/-- A mnemonic with no operand. -/
def asm0 (i : Instr) (ops : List (List Char)) : Option (List AsmCommand) :=
  match ops with
  | [[]] => some (asmWords [i])
  | _ => none

/-- The instruction or pseudo-instruction of an upper-case mnemonic and its operands, in the order of the table of
30_encoding R87 and R88. -/
def asmMnemonic (name : List Char) (ops : List (List Char)) : Option (List AsmCommand) :=
  if name = ['N', 'O', 'P'] then asm0 .nop ops
  else if name = ['L', 'O', 'A', 'D'] then (match ops with | [a] => parseLoad a | _ => none)
  else if name = ['R', 'E', 'A', 'D'] then asm1 (fun a => [.read a]) ops
  else if name = ['R', 'D', 'S', 'T', 'A', 'T'] then asm0 .rdstat ops
  else if name = ['X', 'O', 'R'] then asm3 (fun a b c => [.xor a b c]) ops
  else if name = ['A', 'D', 'D'] then asm3 (fun a b c => [.add a b c]) ops
  else if name = ['A', 'D', 'D', 'S'] then asmImm (fun a b c => [.adds a b c]) ops
  else if name = ['R', 'O', 'T', 'L'] then asmImm (fun a b c => [.rotl a b c]) ops
  else if name = ['S', 'E', 'T', 'C'] then asm1 (fun a => [.setc a]) ops
  else if name = ['S', 'C', 'R', 'A', 'M'] then asm3 (fun a b c => [.scram a b c]) ops
  else if name = ['S', 'E', 'T', 'K', 'E', 'Y'] then asm1 (fun a => [.setkey a]) ops
  else if name = ['K', 'E', 'Y', 'G', 'E', 'N'] then asm2 (fun a b => [.keygen a b]) ops
  else if name = ['S', 'E', 'T', 'C', 'T', 'R'] then asm1 (fun a => [.setctr a]) ops
  else if name = ['G', 'E', 'T', 'C', 'T', 'R'] then asm1 (fun a => [.getctr a]) ops
  else if name = ['C', 'T', 'R', 'X'] then asm2 (fun a b => [.ctrx a b]) ops
  else if name = ['M', 'O', 'V'] then asm2 (fun a b => expandPseudo (.mov a b)) ops
  else if name = ['I', 'N', 'C'] then asm1 (fun a => expandPseudo (.inc a)) ops
  else if name = ['R', 'O', 'T', 'R'] then asmImm (fun a b c => expandPseudo (.rotr a b c)) ops
  else if name = ['S', 'E', 'E', 'K'] then asmImm (fun a b c => expandPseudo (.seek a b c)) ops
  else none

/-- Assemble one line: no command for an empty line or a comment, `none` for a line that is not of the syntax
(30_encoding R87). -/
def assembleLine (line : List Char) : Option (List AsmCommand) :=
  match trimBlanks (dropComment line) with
  | [] => some []
  | text => asmMnemonic ((text.takeWhile fun ch => !isBlank ch).map Char.toUpper)
      (splitAtChar ',' (text.dropWhile fun ch => !isBlank ch))

end Sys2Proof.Machine
end

