-- ==== Sys2Proof/Safety.lean ====
section
/-! DEFINITION. The terms claims are stated in: what a command leaves unchanged, how it ends, the invariant of a run, which
states the host cannot tell apart, and the spec's own step function of 60_exceptions R212 and R215, written as one check and
one effect, beside CTR mode as 42_ctr R161 defines it. -/

namespace Sys2Proof.Machine

/-! What is unchanged. -/

/-- Every data register and valid bit is unchanged. -/
abbrev RegsKept (s t : State) : Prop := t.r = s.r ∧ t.rv = s.rv

/-- Every data register and valid bit but rd's is unchanged. -/
abbrev OtherRegsKept (rd : RegIdx) (s t : State) : Prop :=
  ∀ i, i ≠ rd → t.reg i = s.reg i ∧ t.valid i = s.valid i

/-- C and CV are unchanged. -/
abbrev ConstKept (s t : State) : Prop := t.c = s.c ∧ t.cv = s.cv

/-- KEY and KV are unchanged. -/
abbrev KeyKept (s t : State) : Prop := t.key = s.key ∧ t.kv = s.kv

/-- CTR and TV are unchanged. -/
abbrev CtrKept (s t : State) : Prop := t.ctr = s.ctr ∧ t.tv = s.tv

/-- The phase, the sampled command, the host's offer, its list and its index are unchanged. -/
abbrev HostSideKept (s t : State) : Prop :=
  t.phase = s.phase ∧ t.cmd = s.cmd ∧ t.din = s.din ∧ t.offer = s.offer ∧ t.host = s.host ∧ t.n = s.n

/-- A command other than RDSTAT ends with OK and the given DOUT (60_exceptions R214). -/
abbrev EndsOk (dout : Word) (s t : State) : Prop :=
  t.lastErr = 0#4 ∧ t.errSeen = s.errSeen ∧ t.rsp = some ⟨0#4, dout⟩

/-- A command ends with an error: only LASTERR, ERRSEEN and the response differ (60_exceptions R213). -/
abbrev EndsWith (st : Status) (s t : State) : Prop :=
  RegsKept s t ∧ ConstKept s t ∧ KeyKept s t ∧ CtrKept s t ∧ HostSideKept s t ∧
    t.lastErr = st.code ∧ t.errSeen = true ∧ t.rsp = some ⟨st.code, 0#128⟩

/-- A command succeeds, writes this value to rd and changes nothing else (10_state R23, 60_exceptions R214). -/
abbrev WritesOnlyReg (rd : RegIdx) (v : Word) (s t : State) : Prop :=
  t.reg rd = v ∧ t.valid rd = true ∧ OtherRegsKept rd s t ∧ ConstKept s t ∧ KeyKept s t ∧ CtrKept s t ∧
    HostSideKept s t ∧ EndsOk 0#128 s t

/-- The instruction completes with this error. -/
abbrev Fails (i : Instr) (st : Status) (s : State) : Prop := ∃ t, exec i s = .next t ∧ EndsWith st s t

/-- Performing this word completes with ILLEGAL, whatever the state (30_encoding R85). -/
def CompletesIllegal (w : CmdWord) : Prop :=
  ∀ s : State, s.cmd = w → ∃ t, runCommand s = .next t ∧ EndsWith .illegal s t

/-- Every word with this OP is the instruction its fields give if the fields are legal, and completes with ILLEGAL if they are
not (the "Encoding" and the "ILLEGAL if" lines of an instruction's rule). -/
def WordsWithOp (op : BitVec 8) (legal : Fields → Bool) (instr : Fields → Instr) : Prop :=
  ∀ w, (fields w).op = op →
    (legal (fields w) = true → decode w = .instr (instr (fields w))) ∧
    (legal (fields w) = false → CompletesIllegal w)

/-! The invariant of a run. -/

/-- What every step keeps: LASTERR is a code the block produces, and not 0 only if an error has been seen (10_state R30 to
R32); a response has such a code, and DOUT = 0 with an error (60_exceptions R210, R213); a response is on offer only if
there is one (20_memory R53); and a cipher request is out only for a CTRX that has passed its checks (20_memory R54). -/
structure State.Inv (s : State) : Prop where
  lastErr_legal : s.lastErr.toNat ≤ 7
  lastErr_seen : s.lastErr ≠ 0#4 → s.errSeen = true
  rsp_legal : ∀ a, s.rsp = some a → a.status.toNat ≤ 7 ∧ (a.status ≠ 0#4 → a.dout = 0#128)
  rsp_offered : s.phase = .responding → s.rsp ≠ none
  request_asked : s.phase = .requesting ∨ s.phase = .awaiting → s.asksCipher = true

/-- The next move of the host's list is an edge with RST = 1. -/
def State.resetNext (s : State) : Bool :=
  match s.host[s.n]? with
  | some (.edge p) => p.rst
  | _ => false

/-! What the host cannot tell apart. -/

/-- Two states that differ only in the contents of registers whose valid bit is 0 (70_reset R241). -/
structure SameButUnwritten (s t : State) : Prop where
  rv : s.rv = t.rv
  reg : ∀ i, s.valid i = true → s.reg i = t.reg i
  cv : s.cv = t.cv
  c : s.cv = true → s.c = t.c
  kv : s.kv = t.kv
  key : s.kv = true → s.key = t.key
  tv : s.tv = t.tv
  ctr : s.tv = true → s.ctr = t.ctr
  lastErr : s.lastErr = t.lastErr
  errSeen : s.errSeen = t.errSeen
  phase : s.phase = t.phase
  cmd : s.cmd = t.cmd
  din : s.din = t.din
  offer : s.offer = t.offer
  rsp : s.rsp = t.rsp
  host : s.host = t.host
  n : s.n = t.n

/-- Two outcomes of the same kind, with next states related and refusals equal. -/
def SameOutcome (R : State → State → Prop) : Result → Result → Prop
  | .next s, .next t => R s t
  | .refused a, .refused b => a = b
  | .fault a, .fault b => a = b
  | _, _ => False

/-! The spec's step function (60_exceptions R212, R215), P_E an argument. -/

/-- The source registers an instruction uses, RS1 first (60_exceptions R211). -/
def sourcesOf : Instr → List RegIdx
  | .nop | .load _ | .rdstat | .getctr _ => []
  | .read a | .setc a | .setkey a | .setctr a => [a]
  | .adds _ a _ | .rotl _ a _ | .ctrx _ a => [a]
  | .xor _ a b | .add _ a b | .scram _ a b | .keygen a b => [a, b]

/-- The data register an instruction writes, if any (10_state R22). -/
def destOf : Instr → Option RegIdx
  | .load rd | .xor rd _ _ | .add rd _ _ | .adds rd _ _ | .rotl rd _ _ => some rd
  | .scram rd _ _ | .getctr rd | .ctrx rd _ => some rd
  | .nop | .read _ | .rdstat | .setc _ | .setkey _ | .keygen _ _ | .setctr _ => none

/-- The instructions that use the constant C (60_exceptions R211). -/
def usesConst : Instr → Bool
  | .scram .. | .keygen .. => true
  | _ => false

/-- The instruction is SETC. -/
def isSetc : Instr → Bool
  | .setc _ => true
  | _ => false

/-- The instruction is CTRX. -/
def isCtrx : Instr → Bool
  | .ctrx .. => true
  | _ => false

/-- The instruction is GETCTR. -/
def isGetctr : Instr → Bool
  | .getctr _ => true
  | _ => false

/-- The checks in the order of 60_exceptions R212, for a legal word. -/
def check (E : Word → Word → Config.CipherAnswer) (i : Instr) (s : State) : Status :=
  if (sourcesOf i).any (fun a => !s.valid a) then .uninit
  else if usesConst i && !s.cv then .cUnset
  else if isSetc i && s.cv then .cLocked
  else if isCtrx i && !s.kv then .keyUnset
  else if (isCtrx i || isGetctr i) && !s.tv then .ctrUnset
  else if isCtrx i && E s.key s.ctr == .failure then .primFail
  else .ok

/-- The checks in the order of 60_exceptions R212, for any word. -/
def checkWord (E : Word → Word → Config.CipherAnswer) (w : CmdWord) (s : State) : Status :=
  match decode w with
  | .illegal _ => .illegal
  | .instr i => check E i s

/-- The pseudocode of each instruction's rule, run when no check fires (00_scope R10): the new state and DOUT. -/
def perform (E : Word → Word → Config.CipherAnswer) (i : Instr) (s : State) : State × Word :=
  match i with
  | .nop => (s, 0#128)
  | .load rd => (s.setReg rd s.din, 0#128)
  | .read a => (s, s.reg a)
  | .rdstat => (s, s.stat.setWidth 128)
  | .xor rd a b => (s.setReg rd (s.reg a ^^^ s.reg b), 0#128)
  | .add rd a b => (s.setReg rd (s.reg a + s.reg b), 0#128)
  | .adds rd a imm => (s.setReg rd (s.reg a + imm.setWidth 128), 0#128)
  | .rotl rd a imm => (s.setReg rd (rotl128 (s.reg a) imm.toNat), 0#128)
  | .setc a => ({ s with c := s.reg a, cv := true }, 0#128)
  | .scram rd a b => (s.setReg rd (scramble (s.reg a) (s.reg b) s.c), 0#128)
  | .setkey a => ({ s with key := s.reg a, kv := true }, 0#128)
  | .keygen a b => ({ s with key := scramble (s.reg a) (s.reg b) s.c, kv := true }, 0#128)
  | .setctr a => ({ s with ctr := s.reg a, tv := true }, 0#128)
  | .getctr rd => (s.setReg rd s.ctr, 0#128)
  | .ctrx rd a =>
    match E s.key s.ctr with
    | .block ks => ({ s.setReg rd (s.reg a ^^^ ks) with ctr := s.ctr + 1#128 }, 0#128)
    | .failure => (s, 0#128)

/-- Step (60_exceptions R215): the new state, RSP_STATUS and DOUT. -/
def specStep (E : Word → Word → Config.CipherAnswer) (s : State) (w : CmdWord) (din : Word) : State × Code × Word :=
  match decode w with
  | .illegal _ => ({ s with lastErr := 1#4, errSeen := true }, 1#4, 0#128)
  | .instr i =>
    let s := { s with din := din }
    let code := checkWord E w s
    if code ≠ .ok then ({ s with lastErr := code.code, errSeen := true }, code.code, 0#128)
    else
      let out := perform E i s
      if i ≠ .rdstat then ({ out.1 with lastErr := 0#4 }, 0#4, out.2) else (out.1, 0#4, out.2)

/-- The block's part of two states is the same: all of S (10_state R21). -/
abbrev SameBlock (s t : State) : Prop :=
  s.r = t.r ∧ s.rv = t.rv ∧ s.c = t.c ∧ s.cv = t.cv ∧ s.key = t.key ∧ s.kv = t.kv ∧ s.ctr = t.ctr ∧ s.tv = t.tv ∧
    s.lastErr = t.lastErr ∧ s.errSeen = t.errSeen

/-! The assembler's lines (30_encoding R87). -/

/-- Operands separated by commas, one blank after each comma. -/
def commaList : List (List Char) → List Char
  | [] => []
  | [o] => o
  | o :: os => o ++ ',' :: ' ' :: commaList os

/-- An operand's text: not empty, no comma or semicolon in it, no blanks around it. -/
abbrev OperandText (o : List Char) : Prop := o ≠ [] ∧ ',' ∉ o ∧ ';' ∉ o ∧ trimBlanks o = o

/-- The text of a register (30_encoding R87). -/
def regText (i : RegIdx) : List Char := ['r', Char.ofNat (48 + i.val)]

/-- Assembling these operands after this mnemonic gives exactly the words of these instructions, with no payload. -/
abbrev AssemblesTo (name : String) (ops : List (List Char)) (is : List Instr) : Prop :=
  asmMnemonic name.toList ops = some (is.map fun i => ⟨encode i, none⟩)

/-! Sequences of commands. -/

/-- Instructions performed one after another (20_memory R60). -/
def execAll : List Instr → State → Result
  | [], s => .next s
  | i :: is, s =>
    match exec i s with
    | .next t => execAll is t
    | .fault a => .fault a
    | .refused a => .refused a

/-- How many of these instructions, performed one after another, answer OK. -/
def okCount : List Instr → State → Nat
  | [], _ => 0
  | i :: is, s =>
    match exec i s with
    | .next t => (if t.rsp.map Response.status = some 0#4 then 1 else 0) + okCount is t
    | _ => 0

/-- The sequential composition of Step over a command list (20_memory R60): the state after it. -/
def composeStep (E : Word → Word → Config.CipherAnswer) (s : State) (xs : List Transaction) : State :=
  xs.foldl (fun u x => (specStep E u x.cmd x.din).1) s

/-- The DOUT of each payload block when every block is loaded into rd, transformed in place and read (42_ctr R171). -/
def jobOutputs (rd : RegIdx) : List Word → State → List Word
  | [], _ => []
  | b :: bs, s =>
    match execAll [.load rd, .ctrx rd rd, .read rd] { s with din := b } with
    | .next t => (match t.rsp with | some a => a.dout | none => 0#128) :: jobOutputs rd bs t
    | _ => []

/-- CTR mode (42_ctr R161), with the counter standing still and the input unchanged where the cipher fails (R168). -/
def ctrMode (E : Word → Word → Config.CipherAnswer) (key : Word) : Word → List Word → List Word
  | _, [] => []
  | ctr, b :: bs =>
    match E key ctr with
    | .block ks => (b ^^^ ks) :: ctrMode E key (ctr + 1#128) bs
    | .failure => b :: ctrMode E key ctr bs

/-! The signal level. -/

/-- An edge at which nothing is asserted. -/
def quietPins : PinsIn := ⟨false, false, 0#64, 0#128, false, false, false, false, 0#128⟩

/-- The host offers a command. -/
def offerPins (t : Transaction) : PinsIn := { quietPins with cmdValid := true, cmd := t.cmd, din := t.din }

/-- The cipher accepts the request. -/
def acceptPins : PinsIn := { quietPins with eReqReady := true }

/-- The cipher gives an answer. -/
def answerPins : Config.CipherAnswer → PinsIn
  | .block ks => { quietPins with eRspValid := true, eRspData := ks }
  | .failure => { quietPins with eRspValid := true, eRspFail := true }

/-- The host takes the response. -/
def takePins : PinsIn := { quietPins with rspReady := true }

/-- The edges of one whole command: the command transfer, P_LAT edges of work, for a CTRX that asks the cipher a request
accepted after `a` edges and answered after `b` more, and a response taken after `c` edges (20_memory R53, R54; 70_reset R247). -/
def handshake (t : Transaction) (asks : Bool) (answer : Config.CipherAnswer) (a b c : Nat) : List PinsIn :=
  [offerPins t] ++ List.replicate (Config.extraLatency + 1) quietPins
    ++ (if asks then List.replicate a quietPins ++ [acceptPins] ++ List.replicate b quietPins ++ [answerPins answer] else [])
    ++ List.replicate c quietPins ++ [takePins]

/-- The row of the opcode map an instruction belongs to, 0 to 14 in the spec's order (30_encoding R83). -/
def rowOf : Instr → Nat
  | .nop => 0
  | .load _ => 1
  | .read _ => 2
  | .rdstat => 3
  | .xor .. => 4
  | .add .. => 5
  | .adds .. => 6
  | .rotl .. => 7
  | .setc _ => 8
  | .scram .. => 9
  | .setkey _ => 10
  | .keygen .. => 11
  | .setctr _ => 12
  | .getctr _ => 13
  | .ctrx .. => 14

/-- The match and mask columns of the opcode map (30_encoding R83). -/
def matchMask : List (CmdWord × CmdWord) :=
  [ (0x0000000000000000#64, 0xFFFFFFFFFFFFFFFF#64),
    (0x0000000001000000#64, 0xFFFFFFFFFF1FFFFF#64),
    (0x0000000002000000#64, 0xFFFFFFFFFFE3FFFF#64),
    (0x0000000003000000#64, 0xFFFFFFFFFFFFFFFF#64),
    (0x0000000010000000#64, 0xFFFFFFFFFF007FFF#64),
    (0x0000000011000000#64, 0xFFFFFFFFFF007FFF#64),
    (0x0000000012000000#64, 0x00000000FF03FFFF#64),
    (0x0000000013000000#64, 0x00000000FF03FFFF#64),
    (0x0000000020000000#64, 0xFFFFFFFFFFE3FFFF#64),
    (0x0000000021000000#64, 0xFFFFFFFFFF007FFF#64),
    (0x0000000030000000#64, 0xFFFFFFFFFFE3FFFF#64),
    (0x0000000031000000#64, 0xFFFFFFFFFFE07FFF#64),
    (0x0000000032000000#64, 0xFFFFFFFFFFE3FFFF#64),
    (0x0000000033000000#64, 0xFFFFFFFFFF1FFFFF#64),
    (0x0000000034000000#64, 0xFFFFFFFFFF03FFFF#64) ]

end Sys2Proof.Machine
end

