-- ==== Sys2Proof/Certificates/Slice0/Obligations.lean ====
section
/-! DEFINITION. The statements about DCTR128, from the numbered rules of its spec. -/

open Sys2Proof Sys2Proof.Machine

/-! ## Encoding -/

/-- 30_encoding R84, R86: decoding the word of an instruction gives the instruction back, for every instruction and every
value of every operand. -/
def Obligations.DecodeInvertsEncode : Prop :=
  ∀ i : Instr, decode (encode i) = .instr i

/-- 30_encoding R84, R86: the word a legal instruction was decoded from is the word that instruction encodes to; no two words
mean the same instruction. -/
def Obligations.EncodeInvertsDecode : Prop :=
  ∀ (w : CmdWord) (i : Instr), decode w = .instr i → encode i = w

/-- 30_encoding R83, its last paragraph (marked there as the spec's own inference): a command word encodes the instruction of
a row exactly when its masked bits are the row's match, and at most one row matches any word. -/
def Obligations.DecodeFollowsMatchAndMask : Prop :=
  (∀ (w : CmdWord) (k : Nat) (row : CmdWord × CmdWord), matchMask[k]? = some row →
    (w &&& row.2 = row.1 ↔ ∃ i, decode w = .instr i ∧ rowOf i = k)) ∧
  (∀ (w : CmdWord) (j k : Nat) (a b : CmdWord × CmdWord), matchMask[j]? = some a → matchMask[k]? = some b →
    w &&& a.2 = a.1 → w &&& b.2 = b.1 → j = k)

/-- 30_encoding R85: a word is illegal exactly when OP is not listed, or a reserved bit is not 0, or a field the opcode map
marks "0" is not 0; and an illegal word completes with ILLEGAL, changing only LASTERR and ERRSEEN. -/
def Obligations.IllegalWordsAreThoseOfR85 : Prop :=
  (∀ w : CmdWord, (∃ why, decode w = .illegal why) ↔
    (∀ row ∈ opRows, row.op ≠ (fields w).op) ∨ (fields w).res ≠ 0#15 ∨
    (∃ row ∈ opRows, row.op = (fields w).op ∧
      ((row.usesRd = false ∧ (fields w).rd ≠ 0#3) ∨ (row.usesRs1 = false ∧ (fields w).rs1 ≠ 0#3) ∨
       (row.usesRs2 = false ∧ (fields w).rs2 ≠ 0#3) ∨ (row.usesImm = false ∧ (fields w).imm ≠ 0#32)))) ∧
  (∀ (w : CmdWord) (why : Illegal), decode w = .illegal why → CompletesIllegal w)

/-- 30_encoding R89 (the spec's own inference from R83 and R84): the worked encodings, decoded and encoded. -/
def Obligations.WorkedEncodingsOfR89 : Prop :=
  ∀ p ∈ ([ (.nop, 0x0000000000000000#64), (.load 0, 0x0000000001000000#64), (.read 3, 0x00000000020C0000#64),
      (.rdstat, 0x0000000003000000#64), (.xor 3 3 1, 0x00000000106C8000#64), (.add 3 3 2, 0x00000000116D0000#64),
      (.adds 1 0 0xEEDDCCBB#32, 0xEEDDCCBB12200000#64), (.rotl 3 0 2#32, 0x0000000213600000#64),
      (.rotl 3 3 87#32, 0x00000057136C0000#64), (.setc 2, 0x0000000020080000#64), (.scram 4 0 1, 0x0000000021808000#64),
      (.setkey 5, 0x0000000030140000#64), (.keygen 0 1, 0x0000000031008000#64), (.setctr 6, 0x0000000032180000#64),
      (.getctr 7, 0x0000000033E00000#64), (.ctrx 2 2, 0x0000000034480000#64) ] : List (Instr × CmdWord)),
    decode p.2 = .instr p.1 ∧ encode p.1 = p.2

/-- 30_encoding R88: the assembler accepts each pseudo-instruction, for every register and every immediate, and gives the words
of its expansion; and what each expansion does. MOV copies, INC adds 1 modulo 2^128, ROTR undoes a rotation by n, SEEK sets CTR
to the counter block of block number k. -/
def Obligations.PseudoInstructionsOfR88 : Prop :=
  (∀ (rd rs : RegIdx) (n : BitVec 32) (imm : List Char), parseImm imm = some n →
    AssemblesTo "MOV" [regText rd, regText rs] [.rotl rd rs 0#32] ∧
    AssemblesTo "INC" [regText rd] [.adds rd rd 1#32] ∧
    AssemblesTo "ROTR" [regText rd, regText rs, imm] [.rotl rd rs (BitVec.ofNat 32 ((128 - n.toNat % 128) % 128))] ∧
    AssemblesTo "SEEK" [regText rd, regText rs, imm] [.adds rd rs n, .setctr rd]) ∧
  (∀ (rd rs : RegIdx) (s : State), s.valid rs = true →
    expandPseudo (.mov rd rs) = [.rotl rd rs 0#32] ∧
    ∃ t, execAll (expandPseudo (.mov rd rs)) s = .next t ∧ WritesOnlyReg rd (s.reg rs) s t) ∧
  (∀ (rd : RegIdx) (s : State), s.valid rd = true →
    expandPseudo (.inc rd) = [.adds rd rd 1#32] ∧
    ∃ t, execAll (expandPseudo (.inc rd)) s = .next t ∧ WritesOnlyReg rd (s.reg rd + 1#128) s t) ∧
  (∀ (rd rs : RegIdx) (n : BitVec 32) (s : State), s.valid rs = true →
    (∃ m : BitVec 32, m.toNat = (128 - n.toNat % 128) % 128 ∧ expandPseudo (.rotr rd rs n) = [.rotl rd rs m]) ∧
    ∃ t v, execAll (expandPseudo (.rotr rd rs n)) s = .next t ∧ WritesOnlyReg rd v s t ∧
      rotl128 v n.toNat = s.reg rs) ∧
  (∀ (rt rs : RegIdx) (k : BitVec 32) (s : State), s.valid rs = true →
    expandPseudo (.seek rt rs k) = [.adds rt rs k, .setctr rt] ∧
    ∃ t, execAll (expandPseudo (.seek rt rs k)) s = .next t ∧
      t.ctr.toNat = ((s.reg rs).toNat + k.toNat) % 2 ^ 128 ∧ t.tv = true ∧ t.reg rt = t.ctr ∧ t.valid rt = true ∧
      OtherRegsKept rt s t ∧ ConstKept s t ∧ KeyKept s t ∧ HostSideKept s t ∧ EndsOk 0#128 s t)

/-- 30_encoding R87, with the model's choices of log 15 (blanks, and the case of hex digits): a line of a mnemonic in any case
and operands, with or without a comment, is that mnemonic with those operands; registers are r0 to r7; an immediate is a number
up to 4294967295; a number is its digits' value, decimal or hex after 0x; and each row of the table gives its instruction's
word, LOAD with its payload where the line has one. -/
def Obligations.AssemblyOfR87 : Prop :=
  (∀ (name tail : List Char) (ops : List (List Char)), name ≠ [] → (∀ ch ∈ name, isBlank ch = false ∧ ch ≠ ';') →
    ops ≠ [] → (∀ o ∈ ops, OperandText o) → tail = [] ∨ tail.head? = some ';' →
    assembleLine (name ++ ' ' :: commaList ops ++ tail) = asmMnemonic (name.map Char.toUpper) ops) ∧
  (∀ comment : List Char, assembleLine [] = some [] ∧ assembleLine (';' :: comment) = some []) ∧
  (∀ (cs : List Char) (i : RegIdx), parseReg cs = some i ↔ cs = regText i) ∧
  (∀ (cs : List Char) (m : Nat), parseNumber cs = some m →
    parseImm cs = if m ≤ 4294967295 then some (BitVec.ofNat 32 m) else none) ∧
  (∀ cs : List Char, parseNumber ('0' :: 'x' :: cs) = digitsValue 16 cs) ∧
  (∀ cs : List Char, cs.take 2 ≠ ['0', 'x'] → parseNumber cs = digitsValue 10 cs) ∧
  (∀ (base v d : Nat) (cs : List Char) (ch : Char),
    digitsValue base [ch] = digitValue base ch ∧
    (digitsValue base cs = some v → digitValue base ch = some d → digitsValue base (cs ++ [ch]) = some (v * base + d))) ∧
  assembleLine "NOP".toList = some [⟨encode .nop, none⟩] ∧ assembleLine "RDSTAT".toList = some [⟨encode .rdstat, none⟩] ∧
  (∀ (a b c : RegIdx) (n : BitVec 32) (imm : List Char), parseImm imm = some n →
    AssemblesTo "LOAD" [regText a] [.load a] ∧ AssemblesTo "READ" [regText a] [.read a] ∧
    AssemblesTo "XOR" [regText a, regText b, regText c] [.xor a b c] ∧
    AssemblesTo "ADD" [regText a, regText b, regText c] [.add a b c] ∧
    AssemblesTo "ADDS" [regText a, regText b, imm] [.adds a b n] ∧
    AssemblesTo "ROTL" [regText a, regText b, imm] [.rotl a b n] ∧
    AssemblesTo "SETC" [regText a] [.setc a] ∧ AssemblesTo "SCRAM" [regText a, regText b, regText c] [.scram a b c] ∧
    AssemblesTo "SETKEY" [regText a] [.setkey a] ∧ AssemblesTo "KEYGEN" [regText a, regText b] [.keygen a b] ∧
    AssemblesTo "SETCTR" [regText a] [.setctr a] ∧ AssemblesTo "GETCTR" [regText a] [.getctr a] ∧
    AssemblesTo "CTRX" [regText a, regText b] [.ctrx a b]) ∧
  (∀ (rd : RegIdx) (hex : List Char) (m : Nat), hex.length = 32 → digitsValue 16 hex = some m →
    asmMnemonic "LOAD".toList [regText rd ++ " <- 0x".toList ++ hex] = some [⟨encode (.load rd), some (BitVec.ofNat 128 m)⟩])

/-! ## The step -/

/-- 60_exceptions R215, 20_memory R60: when the host's next move is a command whose word decodes to an instruction, the block
is idle and the host has not offered another command (the model's own record of an offer, log 9), the step is that
instruction's meaning, with the command sampled, and the host's index moves on by one (10_state R24). -/
def Obligations.StepRunsDecodedInstruction : Prop :=
  ∀ (s : State) (x : Transaction) (i : Instr),
    s.host[s.n]? = some (.command x) → s.phase = .idle → s.keepsOffer (some x) = true → decode x.cmd = .instr i →
    step s = mapNext (fun t => { t with n := s.n + 1 }) (exec i (s.accept x))

/-- 60_exceptions R235, 70_reset R240: with no move of the host, the state is kept; and (the model's choice, log 8) a whole
command does not start while another is in progress. -/
def Obligations.StepWaits : Prop :=
  (∀ s : State, s.host[s.n]? = none → step s = .next s) ∧
  (∀ (s : State) (x : Transaction), s.host[s.n]? = some (.command x) → s.phase ≠ .idle → step s = .next s)

/-- 60_exceptions R213, 30_encoding R85: the step of an illegal word completes with ILLEGAL, and the index moves on. -/
def Obligations.StepOfIllegalWord : Prop :=
  ∀ (s : State) (x : Transaction) (why : Illegal),
    s.host[s.n]? = some (.command x) → s.phase = .idle → s.keepsOffer (some x) = true → decode x.cmd = .illegal why →
    ∃ t, EndsWith .illegal (s.accept x) t ∧ step s = .next { t with n := s.n + 1 }

/-- 10_state R34: the state after reset, at power-up and at any edge with RST = 1. Of the unspecified contents the statement
says nothing. -/
def Obligations.ResetStateOfR34 : Prop :=
  (State.reset.rv = 0x00#8 ∧ State.reset.cv = false ∧ State.reset.kv = false ∧ State.reset.tv = false ∧
    State.reset.lastErr = 0#4 ∧ State.reset.errSeen = false ∧ State.reset.phase = .idle) ∧
  (∀ (s : State) (p : PinsIn), p.rst = true → ∃ t, clockEdge p s = .next t ∧
    t.rv = 0x00#8 ∧ t.cv = false ∧ t.kv = false ∧ t.tv = false ∧ t.lastErr = 0#4 ∧ t.errSeen = false ∧ t.phase = .idle)

/-- 70_reset R242: a reset abandons the command in progress and its cipher request, whatever it had done, and no response is
left; and an answer of the cipher changes nothing while no request has been accepted and not answered, nor is accepted at this
edge. That includes a second answer to a request already answered, which 93_implementation_defined U12 would refuse (the model's
choice, log 21), and an answer while a request is on offer and not accepted (log 11). -/
def Obligations.ResetAbandonsCommand : Prop :=
  (∀ (s : State) (p : PinsIn), p.rst = true → ∃ t, clockEdge p s = .next t ∧ t.phase = .idle ∧
    t.rv = 0#8 ∧ t.cv = false ∧ t.kv = false ∧ t.tv = false ∧ t.lastErr = 0#4 ∧ t.errSeen = false ∧
    (t.outputs false).cmdReady = true ∧ (t.outputs false).rsp = none ∧ (t.outputs false).eReq = none) ∧
  (∀ (s : State) (p : PinsIn) (valid failed : Bool) (data : Word),
    (s.phase = .requesting → p.eReqReady = false) → s.phase ≠ .awaiting →
    clockEdge { p with eRspValid := valid, eRspFail := failed, eRspData := data } s = clockEdge p s)

/-- 70_reset R240: while RST = 1 every output VALID and READY is 0, and with RST = 0 after a reset the block takes a command
at once. -/
def Obligations.OutputsUnderReset : Prop :=
  (∀ s : State, s.outputs true = ⟨false, none, none⟩) ∧
  (∀ (s : State) (p q : PinsIn), p.rst = true → q.rst = false → q.cmdValid = true →
    ∃ t u, clockEdge p s = .next t ∧ (t.outputs q.rst).cmdReady = true ∧ clockEdge q t = .next u ∧
      u.cmd = q.cmd ∧ u.din = q.din ∧ u.phase ≠ .idle)

/-! ## The instructions -/

/-- 43_transfer R193: NOP. -/
def Obligations.NopAsR193 : Prop :=
  WordsWithOp 0x00#8 (fun f => f.rd == 0#3 && f.rs1 == 0#3 && f.rs2 == 0#3 && f.imm == 0#32 && f.res == 0#15)
    (fun _ => .nop) ∧
  (∀ s : State, ∃ t, exec .nop s = .next t ∧
    RegsKept s t ∧ ConstKept s t ∧ KeyKept s t ∧ CtrKept s t ∧ HostSideKept s t ∧ EndsOk 0#128 s t)

/-- 43_transfer R190: LOAD, and that no other instruction reads DIN. -/
def Obligations.LoadAsR190 : Prop :=
  WordsWithOp 0x01#8 (fun f => f.rs1 == 0#3 && f.rs2 == 0#3 && f.imm == 0#32 && f.res == 0#15)
    (fun f => .load (regOf f.rd)) ∧
  (∀ (rd : RegIdx) (s : State), ∃ t, exec (.load rd) s = .next t ∧ WritesOnlyReg rd s.din s t) ∧
  (∀ (i : Instr) (s : State) (d : Word), (∀ rd, i ≠ .load rd) →
    exec i { s with din := d } = mapNext (fun t => { t with din := d }) (exec i s))

/-- 43_transfer R191: READ. -/
def Obligations.ReadAsR191 : Prop :=
  WordsWithOp 0x02#8 (fun f => f.rd == 0#3 && f.rs2 == 0#3 && f.imm == 0#32 && f.res == 0#15)
    (fun f => .read (regOf f.rs1)) ∧
  (∀ (rs1 : RegIdx) (s : State), s.valid rs1 = false → Fails (.read rs1) .uninit s) ∧
  (∀ (rs1 : RegIdx) (s : State), s.valid rs1 = true → ∃ t, exec (.read rs1) s = .next t ∧
    RegsKept s t ∧ ConstKept s t ∧ KeyKept s t ∧ CtrKept s t ∧ HostSideKept s t ∧ EndsOk (s.reg rs1) s t)

/-- 43_transfer R192: RDSTAT returns STAT as it stood, keeps LASTERR and ERRSEEN, and so gives the same again. -/
def Obligations.RdstatAsR192 : Prop :=
  WordsWithOp 0x03#8 (fun f => f.rd == 0#3 && f.rs1 == 0#3 && f.rs2 == 0#3 && f.imm == 0#32 && f.res == 0#15)
    (fun _ => .rdstat) ∧
  (∀ s : State, ∃ t, exec .rdstat s = .next t ∧
    RegsKept s t ∧ ConstKept s t ∧ KeyKept s t ∧ CtrKept s t ∧ HostSideKept s t ∧
    t.lastErr = s.lastErr ∧ t.errSeen = s.errSeen ∧ t.rsp = some ⟨0#4, s.stat.setWidth 128⟩ ∧
    exec .rdstat t = .next t) ∧
  (∃ t, exec .rdstat State.reset = .next t ∧ t.rsp = some ⟨0#4, 0#128⟩)

/-- 40_arithmetic R110: XOR. -/
def Obligations.XorAsR110 : Prop :=
  WordsWithOp 0x10#8 (fun f => f.imm == 0#32 && f.res == 0#15)
    (fun f => .xor (regOf f.rd) (regOf f.rs1) (regOf f.rs2)) ∧
  (∀ (rd rs1 rs2 : RegIdx) (s : State), s.valid rs1 = false ∨ s.valid rs2 = false → Fails (.xor rd rs1 rs2) .uninit s) ∧
  (∀ (rd rs1 rs2 : RegIdx) (s : State), s.valid rs1 = true → s.valid rs2 = true →
    ∃ t, exec (.xor rd rs1 rs2) s = .next t ∧ WritesOnlyReg rd (s.reg rs1 ^^^ s.reg rs2) s t)

/-- 40_arithmetic R113: ADD, modulo 2^128, the carry out recorded nowhere. -/
def Obligations.AddAsR113 : Prop :=
  WordsWithOp 0x11#8 (fun f => f.imm == 0#32 && f.res == 0#15)
    (fun f => .add (regOf f.rd) (regOf f.rs1) (regOf f.rs2)) ∧
  (∀ (rd rs1 rs2 : RegIdx) (s : State), s.valid rs1 = false ∨ s.valid rs2 = false → Fails (.add rd rs1 rs2) .uninit s) ∧
  (∀ (rd rs1 rs2 : RegIdx) (s : State), s.valid rs1 = true → s.valid rs2 = true →
    ∃ t v, exec (.add rd rs1 rs2) s = .next t ∧ WritesOnlyReg rd v s t ∧
      v.toNat = ((s.reg rs1).toNat + (s.reg rs2).toNat) % 2 ^ 128)

/-- 40_arithmetic R116: ADDS, the 32-bit unsigned amount added with full carry. -/
def Obligations.AddsAsR116 : Prop :=
  WordsWithOp 0x12#8 (fun f => f.rs2 == 0#3 && f.res == 0#15)
    (fun f => .adds (regOf f.rd) (regOf f.rs1) f.imm) ∧
  (∀ (rd rs1 : RegIdx) (imm : BitVec 32) (s : State), s.valid rs1 = false → Fails (.adds rd rs1 imm) .uninit s) ∧
  (∀ (rd rs1 : RegIdx) (imm : BitVec 32) (s : State), s.valid rs1 = true →
    ∃ t v, exec (.adds rd rs1 imm) s = .next t ∧ WritesOnlyReg rd v s t ∧
      v.toNat = ((s.reg rs1).toNat + imm.toNat) % 2 ^ 128)

/-- 40_arithmetic R121: ROTL by any 32-bit amount, taken modulo 128. -/
def Obligations.RotlAsR121 : Prop :=
  WordsWithOp 0x13#8 (fun f => f.rs2 == 0#3 && f.res == 0#15)
    (fun f => .rotl (regOf f.rd) (regOf f.rs1) f.imm) ∧
  (∀ (rd rs1 : RegIdx) (imm : BitVec 32) (s : State), s.valid rs1 = false → Fails (.rotl rd rs1 imm) .uninit s) ∧
  (∀ (rd rs1 : RegIdx) (imm : BitVec 32) (s : State), s.valid rs1 = true →
    ∃ t, exec (.rotl rd rs1 imm) s = .next t ∧ WritesOnlyReg rd (rotl128 (s.reg rs1) imm.toNat) s t ∧
      (∀ k < 128, (t.reg rd).getLsbD ((k + imm.toNat) % 128) = (s.reg rs1).getLsbD k))

/-- 41_scrambler R141: SETC loads C once; after that only reset changes C. -/
def Obligations.SetcAsR141 : Prop :=
  WordsWithOp 0x20#8 (fun f => f.rd == 0#3 && f.rs2 == 0#3 && f.imm == 0#32 && f.res == 0#15)
    (fun f => .setc (regOf f.rs1)) ∧
  (∀ (rs1 : RegIdx) (s : State), s.valid rs1 = false → Fails (.setc rs1) .uninit s) ∧
  (∀ (rs1 : RegIdx) (s : State), s.valid rs1 = true → s.cv = true → Fails (.setc rs1) .cLocked s) ∧
  (∀ (rs1 : RegIdx) (s : State), s.valid rs1 = true → s.cv = false → ∃ t, exec (.setc rs1) s = .next t ∧
    t.c = s.reg rs1 ∧ t.cv = true ∧ RegsKept s t ∧ KeyKept s t ∧ CtrKept s t ∧ HostSideKept s t ∧ EndsOk 0#128 s t) ∧
  (∀ s t : State, s.cv = true → s.resetNext = false → step s = .next t → t.c = s.c ∧ t.cv = true)

/-- 41_scrambler R142 with R140: SCRAM writes the four stages' result. -/
def Obligations.ScramAsR142 : Prop :=
  WordsWithOp 0x21#8 (fun f => f.imm == 0#32 && f.res == 0#15)
    (fun f => .scram (regOf f.rd) (regOf f.rs1) (regOf f.rs2)) ∧
  (∀ (rd rs1 rs2 : RegIdx) (s : State), s.valid rs1 = false ∨ s.valid rs2 = false →
    Fails (.scram rd rs1 rs2) .uninit s) ∧
  (∀ (rd rs1 rs2 : RegIdx) (s : State), s.valid rs1 = true → s.valid rs2 = true → s.cv = false →
    Fails (.scram rd rs1 rs2) .cUnset s) ∧
  (∀ (rd rs1 rs2 : RegIdx) (s : State), s.valid rs1 = true → s.valid rs2 = true → s.cv = true →
    ∃ t, exec (.scram rd rs1 rs2) s = .next t ∧
      WritesOnlyReg rd (rotl128 ((rotl128 (s.reg rs1) 2 ^^^ s.reg rs2) + s.c) 87) s t)

/-- 42_ctr R162: SETKEY. -/
def Obligations.SetkeyAsR162 : Prop :=
  WordsWithOp 0x30#8 (fun f => f.rd == 0#3 && f.rs2 == 0#3 && f.imm == 0#32 && f.res == 0#15)
    (fun f => .setkey (regOf f.rs1)) ∧
  (∀ (rs1 : RegIdx) (s : State), s.valid rs1 = false → Fails (.setkey rs1) .uninit s) ∧
  (∀ (rs1 : RegIdx) (s : State), s.valid rs1 = true → ∃ t, exec (.setkey rs1) s = .next t ∧
    t.key = s.reg rs1 ∧ t.kv = true ∧ RegsKept s t ∧ ConstKept s t ∧ CtrKept s t ∧ HostSideKept s t ∧ EndsOk 0#128 s t)

/-- 42_ctr R163: KEYGEN, which leaves every data register unchanged. The last clause is the rule's corner case, which the spec
marks as its own inference: KEYGEN gives the KEY that SCRAM and SETKEY give. -/
def Obligations.KeygenAsR163 : Prop :=
  WordsWithOp 0x31#8 (fun f => f.rd == 0#3 && f.imm == 0#32 && f.res == 0#15)
    (fun f => .keygen (regOf f.rs1) (regOf f.rs2)) ∧
  (∀ (rs1 rs2 : RegIdx) (s : State), s.valid rs1 = false ∨ s.valid rs2 = false → Fails (.keygen rs1 rs2) .uninit s) ∧
  (∀ (rs1 rs2 : RegIdx) (s : State), s.valid rs1 = true → s.valid rs2 = true → s.cv = false →
    Fails (.keygen rs1 rs2) .cUnset s) ∧
  (∀ (rs1 rs2 : RegIdx) (s : State), s.valid rs1 = true → s.valid rs2 = true → s.cv = true →
    ∃ t, exec (.keygen rs1 rs2) s = .next t ∧
      t.key = rotl128 ((rotl128 (s.reg rs1) 2 ^^^ s.reg rs2) + s.c) 87 ∧ t.kv = true ∧
      RegsKept s t ∧ ConstKept s t ∧ CtrKept s t ∧ HostSideKept s t ∧ EndsOk 0#128 s t) ∧
  (∀ (rt rs1 rs2 : RegIdx) (s t : State), s.valid rs1 = true → s.valid rs2 = true → s.cv = true →
    exec (.keygen rs1 rs2) s = .next t →
    ∃ u, execAll [.scram rt rs1 rs2, .setkey rt] s = .next u ∧ u.key = t.key ∧ u.kv = t.kv)

/-- 42_ctr R166: SETCTR. -/
def Obligations.SetctrAsR166 : Prop :=
  WordsWithOp 0x32#8 (fun f => f.rd == 0#3 && f.rs2 == 0#3 && f.imm == 0#32 && f.res == 0#15)
    (fun f => .setctr (regOf f.rs1)) ∧
  (∀ (rs1 : RegIdx) (s : State), s.valid rs1 = false → Fails (.setctr rs1) .uninit s) ∧
  (∀ (rs1 : RegIdx) (s : State), s.valid rs1 = true → ∃ t, exec (.setctr rs1) s = .next t ∧
    t.ctr = s.reg rs1 ∧ t.tv = true ∧ RegsKept s t ∧ ConstKept s t ∧ KeyKept s t ∧ HostSideKept s t ∧ EndsOk 0#128 s t)

/-- 42_ctr R167: GETCTR. The last clause is the rule's corner case, which the spec marks as its own inference: after n CTRX
commands it gives the counter block as many further on as answered OK, and those are all n if the last one did (a failure is
repeated, R170). -/
def Obligations.GetctrAsR167 : Prop :=
  WordsWithOp 0x33#8 (fun f => f.rs1 == 0#3 && f.rs2 == 0#3 && f.imm == 0#32 && f.res == 0#15)
    (fun f => .getctr (regOf f.rd)) ∧
  (∀ (rd : RegIdx) (s : State), s.tv = false → Fails (.getctr rd) .ctrUnset s) ∧
  (∀ (rd : RegIdx) (s : State), s.tv = true → ∃ t, exec (.getctr rd) s = .next t ∧ WritesOnlyReg rd s.ctr s t) ∧
  (∀ (n : Nat) (ra rb rd : RegIdx) (s : State), s.valid rb = true → s.kv = true → s.tv = true →
    ∃ t u, execAll (List.replicate n (.ctrx ra rb)) s = .next t ∧ exec (.getctr rd) t = .next u ∧
      u.reg rd = s.ctr + BitVec.ofNat 128 (okCount (List.replicate n (.ctrx ra rb)) s) ∧
      (t.lastErr = 0#4 → okCount (List.replicate n (.ctrx ra rb)) s = n))

/-- 42_ctr R168: CTRX, with the cipher's answer whatever it is: the checks in order, one block transformed, the counter moved
on by one; on Failure PRIM_FAIL and nothing else. The last clauses are over every cipher E: it is asked only when the four
checks pass, and only for the one answer E(KEY, CTR). -/
def Obligations.CtrxAsR168 : Prop :=
  WordsWithOp 0x34#8 (fun f => f.rs2 == 0#3 && f.imm == 0#32 && f.res == 0#15)
    (fun f => .ctrx (regOf f.rd) (regOf f.rs1)) ∧
  (∀ (rd rs1 : RegIdx) (s : State), s.valid rs1 = false → Fails (.ctrx rd rs1) .uninit s) ∧
  (∀ (rd rs1 : RegIdx) (s : State), s.valid rs1 = true → s.kv = false → Fails (.ctrx rd rs1) .keyUnset s) ∧
  (∀ (rd rs1 : RegIdx) (s : State), s.valid rs1 = true → s.kv = true → s.tv = false →
    Fails (.ctrx rd rs1) .ctrUnset s) ∧
  (∀ (rd rs1 : RegIdx) (s : State), s.valid rs1 = true → s.kv = true → s.tv = true →
    ∃ t, exec (.ctrx rd rs1) s = .next t ∧
      match Config.cipher s.key s.ctr with
      | .block ks => t.reg rd = s.reg rs1 ^^^ ks ∧ t.valid rd = true ∧ OtherRegsKept rd s t ∧
          t.ctr.toNat = (s.ctr.toNat + 1) % 2 ^ 128 ∧ t.tv = true ∧ ConstKept s t ∧ KeyKept s t ∧ HostSideKept s t ∧
          EndsOk 0#128 s t
      | .failure => EndsWith .primFail s t) ∧
  (∀ (E : Word → Word → Config.CipherAnswer) (rd rs1 : RegIdx) (s : State) (ks : Word),
    s.valid rs1 = true → s.kv = true → s.tv = true → E s.key s.ctr = .block ks →
    ∃ t, ctrxWith E rd rs1 s = .next t ∧
      (∀ k < 16, byte (t.reg rd) k = byte (s.reg rs1) k ^^^ byte ks k) ∧ t.ctr = s.ctr + 1#128 ∧
      ∃ u, ctrxWith E rd rd { t with ctr := s.ctr } = .next u ∧ u.reg rd = s.reg rs1) ∧
  (∀ (E E' : Word → Word → Config.CipherAnswer) (rd rs1 : RegIdx) (s : State),
    (s.valid rs1 = true → s.kv = true → s.tv = true → E s.key s.ctr = E' s.key s.ctr) →
    ctrxWith E rd rs1 s = ctrxWith E' rd rs1 s) ∧
  (∀ (rd rs1 : RegIdx) (s : State), exec (.ctrx rd rs1) s = ctrxWith Config.cipher rd rs1 s)

/-! ## What holds of every instruction -/

/-- 60_exceptions R213, R214: every instruction completes with a response, in every state. -/
def Obligations.EveryInstructionCompletes : Prop :=
  ∀ (i : Instr) (s : State), ∃ t a, exec i s = .next t ∧ t.rsp = some a

/-- 60_exceptions R215 (the spec's own inference from R212, R213 and R214): performing a word is the Step function: the checks in
their order (R212), then the effect, the response carrying the code and DOUT; the sampled command and
the host's side stay. -/
def Obligations.CommandIsStepOfR215 : Prop :=
  ∀ (s : State) (x : Transaction), ∃ t, runCommand (s.accept x) = .next t ∧
    (let out := specStep Config.cipher s x.cmd x.din
     SameBlock t out.1 ∧ t.rsp = some ⟨out.2.1, out.2.2⟩) ∧
    HostSideKept (s.accept x) t

/-- 20_memory R60, 10_state R24: a list of whole commands, taken one a step by an idle block, is the sequential composition of
the Step function: after k steps the index is k, the state is that of the first k commands, and the last response is that of
command k given the commands before it; after the whole list nothing more happens. -/
def Obligations.CommandListOfR60 : Prop :=
  ∀ (xs : List Transaction) (s : State) (k : Nat),
    s.phase = .idle → s.offer = none → s.n = 0 → s.host = xs.map .command → k ≤ xs.length →
    ∃ t, Host.Core.run Sys2Proof.core k s = .next t ∧ t.n = k ∧
      SameBlock t (composeStep Config.cipher s (xs.take k)) ∧
      (∀ (j : Nat) (x : Transaction), k = j + 1 → xs[j]? = some x →
        let out := specStep Config.cipher (composeStep Config.cipher s (xs.take j)) x.cmd x.din
        t.rsp = some ⟨out.2.1, out.2.2⟩) ∧
      (k = xs.length → step t = .next t)

/-- 60_exceptions R213: a command whose check gives a code other than OK changes no register and no valid bit, records the
code in LASTERR and ERRSEEN, returns it with DOUT = 0, and leaves the block ready for the next command. -/
def Obligations.FailedCommandOfR213 : Prop :=
  ∀ s : State, checkWord Config.cipher s.cmd s ≠ .ok →
    ∃ t, runCommand s = .next t ∧ EndsWith (checkWord Config.cipher s.cmd s) s t

/-- 60_exceptions R214: a command whose check gives OK answers 0, with DOUT 0 unless it is READ or RDSTAT, and sets LASTERR
to 0 unless it is RDSTAT. -/
def Obligations.SuccessfulCommandAnswersOk : Prop :=
  ∀ (s : State) (i : Instr), decode s.cmd = .instr i → check Config.cipher i s = .ok →
    ∃ t d, runCommand s = .next t ∧ t.rsp = some ⟨0#4, d⟩ ∧ t.errSeen = s.errSeen ∧
      ((∀ a, i ≠ .read a) → i ≠ .rdstat → d = 0#128) ∧ (i ≠ .rdstat → t.lastErr = 0#4)

/-- 10_state R30: LASTERR is the status of the last command other than a successful RDSTAT. -/
def Obligations.LastErrOfR30 : Prop :=
  ∀ s t : State, runCommand s = .next t →
    (decode s.cmd = .instr .rdstat → t.lastErr = s.lastErr) ∧
    (decode s.cmd ≠ .instr .rdstat → ∃ a, t.rsp = some a ∧ t.lastErr = a.status)

/-- 10_state R31: a command with a non-zero status sets ERRSEEN, no command clears it, and no step but a reset does. -/
def Obligations.ErrSeenOfR31 : Prop :=
  (∀ (s t : State) (a : Response), runCommand s = .next t → t.rsp = some a →
    (a.status ≠ 0#4 → t.errSeen = true) ∧ (a.status = 0#4 → t.errSeen = s.errSeen)) ∧
  (∀ s t : State, s.errSeen = true → s.resetNext = false → step s = .next t → t.errSeen = true) ∧
  (∀ (s : State) (p : PinsIn), p.rst = true → ∃ t, clockEdge p s = .next t ∧ t.errSeen = false)

/-- 10_state R23: a successful write of R[i] sets RV[i], only reset clears it, and a command with an unwritten source fails
with UNINIT and writes nothing. -/
def Obligations.ValidBitsOfR23 : Prop :=
  (∀ (s t : State) (i : Instr) (rd : RegIdx), destOf i = some rd → check Config.cipher i s = .ok → exec i s = .next t →
    t.valid rd = true) ∧
  (∀ (s t : State) (j : RegIdx), s.valid j = true → s.resetNext = false → step s = .next t → t.valid j = true) ∧
  (∀ (s : State) (i : Instr) (a : RegIdx), a ∈ sourcesOf i → s.valid a = false → Fails i .uninit s) ∧
  (∀ (s : State) (p : PinsIn) (j : RegIdx), p.rst = true → ∃ t, clockEdge p s = .next t ∧ t.valid j = false)

/-- 10_state R27 to R29: no step but a reset unloads C, KEY or CTR, and C once loaded keeps its value. -/
def Obligations.OnlyResetUnloads : Prop :=
  ∀ s t : State, s.resetNext = false → step s = .next t →
    (s.cv = true → t.cv = true ∧ t.c = s.c) ∧ (s.kv = true → t.kv = true) ∧ (s.tv = true → t.tv = true)

/-- 10_state R22, R27 to R29: which instruction may change which register: a data register only the one that names it as its
destination, C only SETC, KEY only SETKEY and KEYGEN, CTR only SETCTR and CTRX (the latter by one); none touches the host's side. -/
def Obligations.WritersOfEachRegister : Prop :=
  ∀ (i : Instr) (s t : State), exec i s = .next t →
    (∀ j, t.reg j ≠ s.reg j ∨ t.valid j ≠ s.valid j → destOf i = some j) ∧
    (t.c ≠ s.c ∨ t.cv ≠ s.cv → ∃ a, i = .setc a) ∧
    (t.key ≠ s.key ∨ t.kv ≠ s.kv → (∃ a, i = .setkey a) ∨ ∃ a b, i = .keygen a b) ∧
    (t.ctr ≠ s.ctr ∨ t.tv ≠ s.tv →
      (∃ a, i = .setctr a) ∨ ∃ rd a, i = .ctrx rd a ∧ t.ctr = s.ctr + 1#128 ∧ t.tv = s.tv) ∧
    HostSideKept s t

/-- 20_memory R58: a successful command other than CTRX and SETC whose destination is not also a source is idempotent; a
repeated SETC fails. -/
def Obligations.RepeatedCommand : Prop :=
  (∀ (i : Instr) (s t : State), (∀ rd, destOf i = some rd → rd ∉ sourcesOf i) → isCtrx i = false → isSetc i = false →
    check Config.cipher i s = .ok → exec i s = .next t → exec i t = .next t) ∧
  (∀ (a : RegIdx) (s t : State), check Config.cipher (.setc a) s = .ok → exec (.setc a) s = .next t →
    Fails (.setc a) .cLocked t)

/-- 10_state R32: the layout of STAT, its reserved bits 0, its value after reset, and its legal LASTERR. -/
def Obligations.StatOfR32 : Prop :=
  (∀ s : State, s.stat.extractLsb' 0 8 = s.rv ∧ s.stat.getLsbD 8 = s.cv ∧ s.stat.getLsbD 9 = s.kv ∧
    s.stat.getLsbD 10 = s.tv ∧ s.stat.extractLsb' 11 5 = 0#5 ∧ s.stat.extractLsb' 16 4 = s.lastErr ∧
    s.stat.getLsbD 20 = s.errSeen ∧ s.stat.extractLsb' 21 11 = 0#11) ∧
  State.reset.stat = 0x00000000#32 ∧
  (∀ s : State, s.Inv → (s.stat.extractLsb' 16 4).toNat ≤ 7)

/-! ## Arithmetic -/

/-- 00_scope R7 (the spec's own inference from R6): what a byte sequence denotes, and that byte k of the value is element k of the sequence. -/
def Obligations.ByteSequenceOfR7 : Prop :=
  (∀ bs : List Byte, bs.length = 16 →
    (ofBytes bs).toNat = ∑ k ∈ Finset.range 16, (bs.getD k 0#8).toNat * 2 ^ (8 * (15 - k)) ∧ bytes (ofBytes bs) = bs) ∧
  (∀ v : Word, ofBytes (bytes v) = v) ∧
  (∀ (v : Word) (k j : Nat), k < 16 → j < 8 → (byte v k).getLsbD j = v.getLsbD (120 - 8 * k + j))

/-- 40_arithmetic R111: XOR works byte by byte, and a second XOR with the same value undoes the first. -/
def Obligations.XorBytewiseOfR111 : Prop :=
  (∀ (x y : Word) (k : Nat), k < 16 → byte (x ^^^ y) k = byte x k ^^^ byte y k) ∧
  (∀ (rd rs1 rs2 : RegIdx) (s : State), s.valid rs1 = true → s.valid rs2 = true →
    ∃ t, exec (.xor rd rs1 rs2) s = .next t ∧
      ∀ k < 16, byte (t.reg rd) k = byte (s.reg rs1) k ^^^ byte (s.reg rs2) k) ∧
  (∀ x y : Word, x ^^^ y ^^^ y = x)

/-- 40_arithmetic R114 (the spec's own inference): the byte-by-byte carry chain is addition modulo 2^128. -/
def Obligations.CarryChainOfR114 : Prop :=
  ∀ a b : Word, addBytes a b = add128 a b ∧ (add128 a b).toNat = (a.toNat + b.toNat) % 2 ^ 128

/-- 40_arithmetic R120 (that the forms agree is the spec's own inference): the integer form and the byte form of the rotation are equal, byte by byte too, and every bit moves up
by n modulo 128. -/
def Obligations.RotateFormsOfR120 : Prop :=
  ∀ (v : Word) (n : Nat),
    rotl128 v n = rotlBytes v n ∧ (∀ k < 16, byte (rotl128 v n) k = rotlByte v n k) ∧
    (∀ k < 128, (rotl128 v n).getLsbD ((k + n) % 128) = v.getLsbD k) ∧
    (rotl128 v n).toNat = v.toNat * 2 ^ (n % 128) % 2 ^ 128 + v.toNat / 2 ^ (128 - n % 128)

/-- 40_arithmetic R122 (in part the spec's own inference from R120): the laws of rotation. -/
def Obligations.RotateLawsOfR122 : Prop :=
  ∀ (v : Word) (n p q : Nat),
    rotl128 v 0 = v ∧ rotl128 v 128 = v ∧
    rotl128 (rotl128 v n) ((128 - n % 128) % 128) = v ∧ rotl128 (rotl128 v n) (128 - n % 128) = v ∧
    rotl128 (rotl128 v p) q = rotl128 v (p + q)

/-- 41_scrambler R146 (the spec's own inference from R140): the stages of the source's vector, with the constant the spec took
from general knowledge (93_implementation_defined G1). -/
def Obligations.ScramblerStagesOfR146 : Prop :=
  let kx : Word := 0x000102030405060708090A0B0C0D0E0F#128
  let ky : Word := 0x00112233445566778899AABBCCDDEEFF#128
  let c : Word := 0x1FF9E9AAC5FE0408024591DC5D52768A#128
  rotl128 kx 2 = 0x0004080C1014181C2024282C3034383C#128 ∧
  rotl128 kx 2 ^^^ ky = 0x00152A3F54417E6BA8BD8297FCE9D6C3#128 ∧
  add128 (rotl128 kx 2 ^^^ ky) c = 0x200F13EA1A3F8273AB0314745A3C4D4D#128 ∧
  rotl128 (add128 (rotl128 kx 2 ^^^ ky) c) 87 = 0x3A2D1E26A6900789F50D1FC139D5818A#128 ∧
  scramble kx ky c = 0x3A2D1E26A6900789F50D1FC139D5818A#128

/-- 41_scrambler R143 (the spec's own inference): SCRAM's result is that of ROTL, XOR, ADD, ROTL in a scratch register rt, with the constant in rc. The
rule needs rt to be no source; that rt is not rc either is said here, since the sequence would overwrite the constant. -/
def Obligations.ScramIsFourInstructions : Prop :=
  ∀ (rd rs1 rs2 rt rc : RegIdx) (s t : State), rt ≠ rs1 → rt ≠ rs2 → rt ≠ rc →
    s.valid rs1 = true → s.valid rs2 = true → s.valid rc = true → s.cv = true → s.reg rc = s.c →
    exec (.scram rd rs1 rs2) s = .next t →
    ∃ u, execAll [.rotl rt rs1 2#32, .xor rt rt rs2, .add rt rt rc, .rotl rt rt 87#32] s = .next u ∧
      u.reg rt = t.reg rd ∧ OtherRegsKept rt s u

/-! ## CTR mode -/

/-- 42_ctr R161; the first clause is R171's sequence (the spec's own inference): loading, transforming and reading block after
block gives CTR mode from the CTR and KEY at the start; CTR mode is in_j XOR E(K, ctr0 + j) wherever E answers (where it fails, the block stays and the counter waits: R168, not R161);
and it undoes itself. -/
def Obligations.CtrModeOfR161 : Prop :=
  (∀ (rd : RegIdx) (blocks : List Word) (s : State), s.kv = true → s.tv = true →
    jobOutputs rd blocks s = ctrMode Config.cipher s.key s.ctr blocks) ∧
  (∀ (E : Word → Word → Config.CipherAnswer) (key ctr0 : Word) (blocks ks : List Word), ks.length = blocks.length →
    (∀ (j : Nat) (k : Word), ks[j]? = some k → E key (ctr0 + BitVec.ofNat 128 j) = .block k) →
    ctrMode E key ctr0 blocks = List.zipWith (· ^^^ ·) blocks ks) ∧
  (∀ (E : Word → Word → Config.CipherAnswer) (key ctr0 : Word) (blocks : List Word),
    ctrMode E key ctr0 (ctrMode E key ctr0 blocks) = blocks)

/-! ## Invariants and what cannot be observed -/

/-- 10_state R34: the state after reset meets the invariant. -/
def Obligations.ResetMeetsInvariant : Prop := State.reset.Inv

/-- 60_exceptions R210, 10_state R30 to R32, 20_memory R53, R54: every step keeps the invariant. -/
def Obligations.StepKeepsInvariant : Prop :=
  ∀ s t : State, s.Inv → step s = .next t → t.Inv

/-- 70_reset R241 (the spec's own inference): the contents of registers not written since reset are unobservable. Two states that differ in nothing else
run alike for any number of steps, and always have the same outputs, cipher requests among them; and the states after a reset
with any two contents are such states. -/
def Obligations.UnwrittenContentsUnobservable : Prop :=
  (∀ (s t : State) (k : Nat), s.Inv → SameButUnwritten s t →
    SameOutcome SameButUnwritten (Host.Core.run Sys2Proof.core k s) (Host.Core.run Sys2Proof.core k t)) ∧
  (∀ (s t : State) (rst : Bool), s.Inv → SameButUnwritten s t → s.outputs rst = t.outputs rst) ∧
  (∀ (s : State) (k : Config.Contents), s = State.reset ∨ (∃ u : State, s = u.resetEdge) →
    SameButUnwritten s { s with r := k.r, c := k.c, key := k.key, ctr := k.ctr })

/-- 10_state R28, 20_memory R59: KEY cannot be read back. Outside CTRX nothing an instruction does but to KEY itself depends
on KEY, and CTRX depends on it only through the cipher's answer. -/
def Obligations.KeyCannotBeRead : Prop :=
  (∀ (i : Instr) (s : State) (k : Word), isCtrx i = false →
    mapNext (fun t => { t with key := 0#128 }) (exec i { s with key := k }) =
      mapNext (fun t => { t with key := 0#128 }) (exec i s)) ∧
  (∀ (E : Word → Word → Config.CipherAnswer) (rd rs1 : RegIdx) (s : State) (k : Word),
    E k s.ctr = E s.key s.ctr →
    mapNext (fun t => { t with key := 0#128 }) (ctrxWith E rd rs1 { s with key := k }) =
      mapNext (fun t => { t with key := 0#128 }) (ctrxWith E rd rs1 s))

/-- 10_state R27, 20_memory R59: C cannot be read back. Outside SCRAM and KEYGEN nothing an instruction does but to C itself
depends on C. -/
def Obligations.ConstantCannotBeRead : Prop :=
  ∀ (i : Instr) (s : State) (k : Word), usesConst i = false →
    mapNext (fun t => { t with c := 0#128 }) (exec i { s with c := k }) =
      mapNext (fun t => { t with c := 0#128 }) (exec i s)

/-! ## The signal level -/

/-- 20_memory R53, R54, 70_reset R247, with the model's choices of logs 5 and 6 (when the latency is counted and when the
writes happen): a whole handshake, with any waits of the cipher and the host, leaves the state of the
command transaction; and the signal level and the transaction level are one machine. -/
def Obligations.HandshakeIsTransaction : Prop :=
  ∀ (s : State) (x : Transaction) (a b c : Nat), s.phase = .idle → s.offer = none →
    clockEdges (handshake x (s.accept x).asksCipher (Config.cipher s.key s.ctr) a b c) s = runCommand (s.accept x)

/-- 20_memory R53: a command is taken only while none is in progress, with CMD and DIN sampled at its transfer; CMD_READY
stays 0 until the response has been transferred; and an offered response or cipher request stays, payload and all, until its
transfer. -/
def Obligations.HandshakeRulesOfR53 : Prop :=
  (∀ (s : State) (rst : Bool), (s.outputs rst).cmdReady = true ↔ rst = false ∧ s.phase = .idle) ∧
  (∀ (s t : State) (p : PinsIn), p.rst = false → (s.outputs false).cmdReady = true → p.cmdValid = true →
    clockEdge p s = .next t → t.cmd = p.cmd ∧ t.din = p.din ∧ (t.outputs false).cmdReady = false ∧
      (t.outputs false).rsp = none) ∧
  (∀ (s t : State) (p : PinsIn), p.rst = false → clockEdge p s = .next t → (s.outputs false).cmdReady = false →
    t.cmd = s.cmd ∧ t.din = s.din ∧
    ((t.outputs false).cmdReady = true ↔ s.phase = .responding ∧ p.rspReady = true)) ∧
  (∀ (s t : State) (p : PinsIn) (a : Response), p.rst = false → clockEdge p s = .next t →
    (s.outputs false).rsp = some a → p.rspReady = false → (t.outputs false).rsp = some a) ∧
  (∀ (s t : State) (p : PinsIn) (q : Word × Word), p.rst = false → clockEdge p s = .next t →
    (s.outputs false).eReq = some q → p.eReqReady = false → (t.outputs false).eReq = some q)

/-- 20_memory R54: a cipher request is on offer only for a CTRX that has passed the checks before PRIM_FAIL, with KEY and CTR
as its payload; such a CTRX makes the request, at the edge that ends its latency (when that is counted is the model's choice,
log 5); once it is accepted no further one is offered before the next command; and no other command asks. -/
def Obligations.CipherRequestsOfR54 : Prop :=
  (∀ (s : State) (q : Word × Word), s.Inv → (s.outputs false).eReq = some q →
    q = (s.key, s.ctr) ∧ ∃ rd rs1, decode s.cmd = .instr (.ctrx rd rs1) ∧ s.valid rs1 = true ∧ s.kv = true ∧ s.tv = true) ∧
  (∀ (s t : State) (p : PinsIn), p.rst = false → clockEdge p s = .next t →
    ((s.outputs false).eReq ≠ none → p.eReqReady = true → (t.outputs false).eReq = none) ∧
    (s.phase = .awaiting ∨ s.phase = .responding ∨ s.phase = .idle → (t.outputs false).eReq = none) ∧
    (s.asksCipher = false → s.phase ≠ .requesting → (t.outputs false).eReq = none)) ∧
  (∀ (s : State) (p : PinsIn), s.phase = .working 0 → s.asksCipher = true → p.rst = false →
    s.keepsOffer p.offered = true →
    ∃ t, clockEdge p s = .next t ∧ (t.outputs false).eReq = some (s.key, s.ctr)) ∧
  (∀ s : State, s.asksCipher = true ↔
    ∃ rd rs1, decode s.cmd = .instr (.ctrx rd rs1) ∧ s.valid rs1 = true ∧ s.kv = true ∧ s.tv = true)

/-- 70_reset R247, 20_memory R53: a block whose cipher never answers is stuck: no edge without a reset and without an answer
gives a response or takes a command, nothing of the block changes, and no whole command starts (the model's choice, log 8). -/
def Obligations.StuckWithoutAnswer : Prop :=
  (∀ (s t : State) (ps : List PinsIn), s.phase = .awaiting → (∀ p ∈ ps, p.rst = false ∧ p.eRspValid = false) →
    clockEdges ps s = .next t →
    t.phase = .awaiting ∧ SameBlock t s ∧ (t.outputs false).cmdReady = false ∧ (t.outputs false).rsp = none) ∧
  (∀ (s : State) (k : Nat), s.phase = .awaiting → s.offer = none → clockEdges (List.replicate k quietPins) s = .next s) ∧
  (∀ (s : State) (x : Transaction), s.phase = .awaiting → commandMove x s = .next s)

/-- 70_reset R245, 20_memory R53, R54 (93_implementation U10, U12): the moves that break a duty of the host or of the cipher
are refused by name (the model's choices, logs 9, 10, 11 and 22): a dropped or changed offer, and an answer other than
P_E's to an accepted request, whether it comes after the edge that accepts it or at that edge. -/
def Obligations.BrokenDutiesRefused : Prop :=
  (∀ (s : State) (p : PinsIn) (x : Transaction), p.rst = false → s.offer = some x → p.offered ≠ some x →
    clockEdge p s = .refused .hostChangedOffer) ∧
  (∀ (s : State) (p : PinsIn), p.rst = false → s.keepsOffer p.offered = true → s.phase = .awaiting →
    p.eRspValid = true → p.answer ≠ Config.cipher s.key s.ctr → clockEdge p s = .refused .cipherBrokeDuty) ∧
  (∀ (s : State) (p : PinsIn), p.rst = false → s.keepsOffer p.offered = true → s.phase = .requesting →
    p.eReqReady = true → p.eRspValid = true → p.answer ≠ Config.cipher s.key s.ctr →
    clockEdge p s = .refused .cipherBrokeDuty)
end

