-- ==== Sys2Proof/Laws/State.lean ====
section
/-! SUPPORT. What each update of the state does to each field, true by rfl, so that no proof unfolds an update. -/

namespace Sys2Proof.Machine

/-! `State.setReg` -/

@[simp] theorem State.setReg_r (s : State) (i : RegIdx) (v : Word) : (s.setReg i v).r = s.r.set i v := rfl
@[simp] theorem State.setReg_rv (s : State) (i : RegIdx) (v : Word) : (s.setReg i v).rv = markValid s.rv i := rfl
@[simp] theorem State.setReg_c (s : State) (i : RegIdx) (v : Word) : (s.setReg i v).c = s.c := rfl
@[simp] theorem State.setReg_cv (s : State) (i : RegIdx) (v : Word) : (s.setReg i v).cv = s.cv := rfl
@[simp] theorem State.setReg_key (s : State) (i : RegIdx) (v : Word) : (s.setReg i v).key = s.key := rfl
@[simp] theorem State.setReg_kv (s : State) (i : RegIdx) (v : Word) : (s.setReg i v).kv = s.kv := rfl
@[simp] theorem State.setReg_ctr (s : State) (i : RegIdx) (v : Word) : (s.setReg i v).ctr = s.ctr := rfl
@[simp] theorem State.setReg_tv (s : State) (i : RegIdx) (v : Word) : (s.setReg i v).tv = s.tv := rfl
@[simp] theorem State.setReg_lastErr (s : State) (i : RegIdx) (v : Word) : (s.setReg i v).lastErr = s.lastErr := rfl
@[simp] theorem State.setReg_errSeen (s : State) (i : RegIdx) (v : Word) : (s.setReg i v).errSeen = s.errSeen := rfl
@[simp] theorem State.setReg_phase (s : State) (i : RegIdx) (v : Word) : (s.setReg i v).phase = s.phase := rfl
@[simp] theorem State.setReg_cmd (s : State) (i : RegIdx) (v : Word) : (s.setReg i v).cmd = s.cmd := rfl
@[simp] theorem State.setReg_din (s : State) (i : RegIdx) (v : Word) : (s.setReg i v).din = s.din := rfl
@[simp] theorem State.setReg_offer (s : State) (i : RegIdx) (v : Word) : (s.setReg i v).offer = s.offer := rfl
@[simp] theorem State.setReg_rsp (s : State) (i : RegIdx) (v : Word) : (s.setReg i v).rsp = s.rsp := rfl
@[simp] theorem State.setReg_host (s : State) (i : RegIdx) (v : Word) : (s.setReg i v).host = s.host := rfl
@[simp] theorem State.setReg_n (s : State) (i : RegIdx) (v : Word) : (s.setReg i v).n = s.n := rfl

/-! `State.setConst` -/

@[simp] theorem State.setConst_r (s : State) (v : Word) : (s.setConst v).r = s.r := rfl
@[simp] theorem State.setConst_rv (s : State) (v : Word) : (s.setConst v).rv = s.rv := rfl
@[simp] theorem State.setConst_c (s : State) (v : Word) : (s.setConst v).c = v := rfl
@[simp] theorem State.setConst_cv (s : State) (v : Word) : (s.setConst v).cv = true := rfl
@[simp] theorem State.setConst_key (s : State) (v : Word) : (s.setConst v).key = s.key := rfl
@[simp] theorem State.setConst_kv (s : State) (v : Word) : (s.setConst v).kv = s.kv := rfl
@[simp] theorem State.setConst_ctr (s : State) (v : Word) : (s.setConst v).ctr = s.ctr := rfl
@[simp] theorem State.setConst_tv (s : State) (v : Word) : (s.setConst v).tv = s.tv := rfl
@[simp] theorem State.setConst_lastErr (s : State) (v : Word) : (s.setConst v).lastErr = s.lastErr := rfl
@[simp] theorem State.setConst_errSeen (s : State) (v : Word) : (s.setConst v).errSeen = s.errSeen := rfl
@[simp] theorem State.setConst_phase (s : State) (v : Word) : (s.setConst v).phase = s.phase := rfl
@[simp] theorem State.setConst_cmd (s : State) (v : Word) : (s.setConst v).cmd = s.cmd := rfl
@[simp] theorem State.setConst_din (s : State) (v : Word) : (s.setConst v).din = s.din := rfl
@[simp] theorem State.setConst_offer (s : State) (v : Word) : (s.setConst v).offer = s.offer := rfl
@[simp] theorem State.setConst_rsp (s : State) (v : Word) : (s.setConst v).rsp = s.rsp := rfl
@[simp] theorem State.setConst_host (s : State) (v : Word) : (s.setConst v).host = s.host := rfl
@[simp] theorem State.setConst_n (s : State) (v : Word) : (s.setConst v).n = s.n := rfl

/-! `State.setKey` -/

@[simp] theorem State.setKey_r (s : State) (v : Word) : (s.setKey v).r = s.r := rfl
@[simp] theorem State.setKey_rv (s : State) (v : Word) : (s.setKey v).rv = s.rv := rfl
@[simp] theorem State.setKey_c (s : State) (v : Word) : (s.setKey v).c = s.c := rfl
@[simp] theorem State.setKey_cv (s : State) (v : Word) : (s.setKey v).cv = s.cv := rfl
@[simp] theorem State.setKey_key (s : State) (v : Word) : (s.setKey v).key = v := rfl
@[simp] theorem State.setKey_kv (s : State) (v : Word) : (s.setKey v).kv = true := rfl
@[simp] theorem State.setKey_ctr (s : State) (v : Word) : (s.setKey v).ctr = s.ctr := rfl
@[simp] theorem State.setKey_tv (s : State) (v : Word) : (s.setKey v).tv = s.tv := rfl
@[simp] theorem State.setKey_lastErr (s : State) (v : Word) : (s.setKey v).lastErr = s.lastErr := rfl
@[simp] theorem State.setKey_errSeen (s : State) (v : Word) : (s.setKey v).errSeen = s.errSeen := rfl
@[simp] theorem State.setKey_phase (s : State) (v : Word) : (s.setKey v).phase = s.phase := rfl
@[simp] theorem State.setKey_cmd (s : State) (v : Word) : (s.setKey v).cmd = s.cmd := rfl
@[simp] theorem State.setKey_din (s : State) (v : Word) : (s.setKey v).din = s.din := rfl
@[simp] theorem State.setKey_offer (s : State) (v : Word) : (s.setKey v).offer = s.offer := rfl
@[simp] theorem State.setKey_rsp (s : State) (v : Word) : (s.setKey v).rsp = s.rsp := rfl
@[simp] theorem State.setKey_host (s : State) (v : Word) : (s.setKey v).host = s.host := rfl
@[simp] theorem State.setKey_n (s : State) (v : Word) : (s.setKey v).n = s.n := rfl

/-! `State.setCtr` -/

@[simp] theorem State.setCtr_r (s : State) (v : Word) : (s.setCtr v).r = s.r := rfl
@[simp] theorem State.setCtr_rv (s : State) (v : Word) : (s.setCtr v).rv = s.rv := rfl
@[simp] theorem State.setCtr_c (s : State) (v : Word) : (s.setCtr v).c = s.c := rfl
@[simp] theorem State.setCtr_cv (s : State) (v : Word) : (s.setCtr v).cv = s.cv := rfl
@[simp] theorem State.setCtr_key (s : State) (v : Word) : (s.setCtr v).key = s.key := rfl
@[simp] theorem State.setCtr_kv (s : State) (v : Word) : (s.setCtr v).kv = s.kv := rfl
@[simp] theorem State.setCtr_ctr (s : State) (v : Word) : (s.setCtr v).ctr = v := rfl
@[simp] theorem State.setCtr_tv (s : State) (v : Word) : (s.setCtr v).tv = true := rfl
@[simp] theorem State.setCtr_lastErr (s : State) (v : Word) : (s.setCtr v).lastErr = s.lastErr := rfl
@[simp] theorem State.setCtr_errSeen (s : State) (v : Word) : (s.setCtr v).errSeen = s.errSeen := rfl
@[simp] theorem State.setCtr_phase (s : State) (v : Word) : (s.setCtr v).phase = s.phase := rfl
@[simp] theorem State.setCtr_cmd (s : State) (v : Word) : (s.setCtr v).cmd = s.cmd := rfl
@[simp] theorem State.setCtr_din (s : State) (v : Word) : (s.setCtr v).din = s.din := rfl
@[simp] theorem State.setCtr_offer (s : State) (v : Word) : (s.setCtr v).offer = s.offer := rfl
@[simp] theorem State.setCtr_rsp (s : State) (v : Word) : (s.setCtr v).rsp = s.rsp := rfl
@[simp] theorem State.setCtr_host (s : State) (v : Word) : (s.setCtr v).host = s.host := rfl
@[simp] theorem State.setCtr_n (s : State) (v : Word) : (s.setCtr v).n = s.n := rfl

/-! `State.advanceCtr` -/

@[simp] theorem State.advanceCtr_r (s : State) : (s.advanceCtr).r = s.r := rfl
@[simp] theorem State.advanceCtr_rv (s : State) : (s.advanceCtr).rv = s.rv := rfl
@[simp] theorem State.advanceCtr_c (s : State) : (s.advanceCtr).c = s.c := rfl
@[simp] theorem State.advanceCtr_cv (s : State) : (s.advanceCtr).cv = s.cv := rfl
@[simp] theorem State.advanceCtr_key (s : State) : (s.advanceCtr).key = s.key := rfl
@[simp] theorem State.advanceCtr_kv (s : State) : (s.advanceCtr).kv = s.kv := rfl
@[simp] theorem State.advanceCtr_ctr (s : State) : (s.advanceCtr).ctr = add128 s.ctr (zextImm 1#32) := rfl
@[simp] theorem State.advanceCtr_tv (s : State) : (s.advanceCtr).tv = s.tv := rfl
@[simp] theorem State.advanceCtr_lastErr (s : State) : (s.advanceCtr).lastErr = s.lastErr := rfl
@[simp] theorem State.advanceCtr_errSeen (s : State) : (s.advanceCtr).errSeen = s.errSeen := rfl
@[simp] theorem State.advanceCtr_phase (s : State) : (s.advanceCtr).phase = s.phase := rfl
@[simp] theorem State.advanceCtr_cmd (s : State) : (s.advanceCtr).cmd = s.cmd := rfl
@[simp] theorem State.advanceCtr_din (s : State) : (s.advanceCtr).din = s.din := rfl
@[simp] theorem State.advanceCtr_offer (s : State) : (s.advanceCtr).offer = s.offer := rfl
@[simp] theorem State.advanceCtr_rsp (s : State) : (s.advanceCtr).rsp = s.rsp := rfl
@[simp] theorem State.advanceCtr_host (s : State) : (s.advanceCtr).host = s.host := rfl
@[simp] theorem State.advanceCtr_n (s : State) : (s.advanceCtr).n = s.n := rfl

/-! `State.respond` -/

@[simp] theorem State.respond_r (s : State) (st : Status) (d : Word) : (s.respond st d).r = s.r := rfl
@[simp] theorem State.respond_rv (s : State) (st : Status) (d : Word) : (s.respond st d).rv = s.rv := rfl
@[simp] theorem State.respond_c (s : State) (st : Status) (d : Word) : (s.respond st d).c = s.c := rfl
@[simp] theorem State.respond_cv (s : State) (st : Status) (d : Word) : (s.respond st d).cv = s.cv := rfl
@[simp] theorem State.respond_key (s : State) (st : Status) (d : Word) : (s.respond st d).key = s.key := rfl
@[simp] theorem State.respond_kv (s : State) (st : Status) (d : Word) : (s.respond st d).kv = s.kv := rfl
@[simp] theorem State.respond_ctr (s : State) (st : Status) (d : Word) : (s.respond st d).ctr = s.ctr := rfl
@[simp] theorem State.respond_tv (s : State) (st : Status) (d : Word) : (s.respond st d).tv = s.tv := rfl
@[simp] theorem State.respond_lastErr (s : State) (st : Status) (d : Word) : (s.respond st d).lastErr = s.lastErr := rfl
@[simp] theorem State.respond_errSeen (s : State) (st : Status) (d : Word) : (s.respond st d).errSeen = s.errSeen := rfl
@[simp] theorem State.respond_phase (s : State) (st : Status) (d : Word) : (s.respond st d).phase = s.phase := rfl
@[simp] theorem State.respond_cmd (s : State) (st : Status) (d : Word) : (s.respond st d).cmd = s.cmd := rfl
@[simp] theorem State.respond_din (s : State) (st : Status) (d : Word) : (s.respond st d).din = s.din := rfl
@[simp] theorem State.respond_offer (s : State) (st : Status) (d : Word) : (s.respond st d).offer = s.offer := rfl
@[simp] theorem State.respond_rsp (s : State) (st : Status) (d : Word) : (s.respond st d).rsp = some ⟨st.code, d⟩ := rfl
@[simp] theorem State.respond_host (s : State) (st : Status) (d : Word) : (s.respond st d).host = s.host := rfl
@[simp] theorem State.respond_n (s : State) (st : Status) (d : Word) : (s.respond st d).n = s.n := rfl

/-! `State.succeed` -/

@[simp] theorem State.succeed_r (s : State) (d : Word) : (s.succeed d).r = s.r := rfl
@[simp] theorem State.succeed_rv (s : State) (d : Word) : (s.succeed d).rv = s.rv := rfl
@[simp] theorem State.succeed_c (s : State) (d : Word) : (s.succeed d).c = s.c := rfl
@[simp] theorem State.succeed_cv (s : State) (d : Word) : (s.succeed d).cv = s.cv := rfl
@[simp] theorem State.succeed_key (s : State) (d : Word) : (s.succeed d).key = s.key := rfl
@[simp] theorem State.succeed_kv (s : State) (d : Word) : (s.succeed d).kv = s.kv := rfl
@[simp] theorem State.succeed_ctr (s : State) (d : Word) : (s.succeed d).ctr = s.ctr := rfl
@[simp] theorem State.succeed_tv (s : State) (d : Word) : (s.succeed d).tv = s.tv := rfl
@[simp] theorem State.succeed_lastErr (s : State) (d : Word) : (s.succeed d).lastErr = 0#4 := rfl
@[simp] theorem State.succeed_errSeen (s : State) (d : Word) : (s.succeed d).errSeen = s.errSeen := rfl
@[simp] theorem State.succeed_phase (s : State) (d : Word) : (s.succeed d).phase = s.phase := rfl
@[simp] theorem State.succeed_cmd (s : State) (d : Word) : (s.succeed d).cmd = s.cmd := rfl
@[simp] theorem State.succeed_din (s : State) (d : Word) : (s.succeed d).din = s.din := rfl
@[simp] theorem State.succeed_offer (s : State) (d : Word) : (s.succeed d).offer = s.offer := rfl
@[simp] theorem State.succeed_rsp (s : State) (d : Word) : (s.succeed d).rsp = some ⟨0#4, d⟩ := rfl
@[simp] theorem State.succeed_host (s : State) (d : Word) : (s.succeed d).host = s.host := rfl
@[simp] theorem State.succeed_n (s : State) (d : Word) : (s.succeed d).n = s.n := rfl

/-! `State.fail` -/

@[simp] theorem State.fail_r (s : State) (st : Status) : (s.fail st).r = s.r := rfl
@[simp] theorem State.fail_rv (s : State) (st : Status) : (s.fail st).rv = s.rv := rfl
@[simp] theorem State.fail_c (s : State) (st : Status) : (s.fail st).c = s.c := rfl
@[simp] theorem State.fail_cv (s : State) (st : Status) : (s.fail st).cv = s.cv := rfl
@[simp] theorem State.fail_key (s : State) (st : Status) : (s.fail st).key = s.key := rfl
@[simp] theorem State.fail_kv (s : State) (st : Status) : (s.fail st).kv = s.kv := rfl
@[simp] theorem State.fail_ctr (s : State) (st : Status) : (s.fail st).ctr = s.ctr := rfl
@[simp] theorem State.fail_tv (s : State) (st : Status) : (s.fail st).tv = s.tv := rfl
@[simp] theorem State.fail_lastErr (s : State) (st : Status) : (s.fail st).lastErr = st.code := rfl
@[simp] theorem State.fail_errSeen (s : State) (st : Status) : (s.fail st).errSeen = true := rfl
@[simp] theorem State.fail_phase (s : State) (st : Status) : (s.fail st).phase = s.phase := rfl
@[simp] theorem State.fail_cmd (s : State) (st : Status) : (s.fail st).cmd = s.cmd := rfl
@[simp] theorem State.fail_din (s : State) (st : Status) : (s.fail st).din = s.din := rfl
@[simp] theorem State.fail_offer (s : State) (st : Status) : (s.fail st).offer = s.offer := rfl
@[simp] theorem State.fail_rsp (s : State) (st : Status) : (s.fail st).rsp = some ⟨st.code, 0#128⟩ := rfl
@[simp] theorem State.fail_host (s : State) (st : Status) : (s.fail st).host = s.host := rfl
@[simp] theorem State.fail_n (s : State) (st : Status) : (s.fail st).n = s.n := rfl

/-! `State.accept` -/

@[simp] theorem State.accept_r (s : State) (x : Transaction) : (s.accept x).r = s.r := rfl
@[simp] theorem State.accept_rv (s : State) (x : Transaction) : (s.accept x).rv = s.rv := rfl
@[simp] theorem State.accept_c (s : State) (x : Transaction) : (s.accept x).c = s.c := rfl
@[simp] theorem State.accept_cv (s : State) (x : Transaction) : (s.accept x).cv = s.cv := rfl
@[simp] theorem State.accept_key (s : State) (x : Transaction) : (s.accept x).key = s.key := rfl
@[simp] theorem State.accept_kv (s : State) (x : Transaction) : (s.accept x).kv = s.kv := rfl
@[simp] theorem State.accept_ctr (s : State) (x : Transaction) : (s.accept x).ctr = s.ctr := rfl
@[simp] theorem State.accept_tv (s : State) (x : Transaction) : (s.accept x).tv = s.tv := rfl
@[simp] theorem State.accept_lastErr (s : State) (x : Transaction) : (s.accept x).lastErr = s.lastErr := rfl
@[simp] theorem State.accept_errSeen (s : State) (x : Transaction) : (s.accept x).errSeen = s.errSeen := rfl
@[simp] theorem State.accept_phase (s : State) (x : Transaction) : (s.accept x).phase = s.phase := rfl
@[simp] theorem State.accept_cmd (s : State) (x : Transaction) : (s.accept x).cmd = x.cmd := rfl
@[simp] theorem State.accept_din (s : State) (x : Transaction) : (s.accept x).din = x.din := rfl
@[simp] theorem State.accept_offer (s : State) (x : Transaction) : (s.accept x).offer = none := rfl
@[simp] theorem State.accept_rsp (s : State) (x : Transaction) : (s.accept x).rsp = s.rsp := rfl
@[simp] theorem State.accept_host (s : State) (x : Transaction) : (s.accept x).host = s.host := rfl
@[simp] theorem State.accept_n (s : State) (x : Transaction) : (s.accept x).n = s.n := rfl

/-! `State.setPhase` -/

@[simp] theorem State.setPhase_r (s : State) (p : Phase) : (s.setPhase p).r = s.r := rfl
@[simp] theorem State.setPhase_rv (s : State) (p : Phase) : (s.setPhase p).rv = s.rv := rfl
@[simp] theorem State.setPhase_c (s : State) (p : Phase) : (s.setPhase p).c = s.c := rfl
@[simp] theorem State.setPhase_cv (s : State) (p : Phase) : (s.setPhase p).cv = s.cv := rfl
@[simp] theorem State.setPhase_key (s : State) (p : Phase) : (s.setPhase p).key = s.key := rfl
@[simp] theorem State.setPhase_kv (s : State) (p : Phase) : (s.setPhase p).kv = s.kv := rfl
@[simp] theorem State.setPhase_ctr (s : State) (p : Phase) : (s.setPhase p).ctr = s.ctr := rfl
@[simp] theorem State.setPhase_tv (s : State) (p : Phase) : (s.setPhase p).tv = s.tv := rfl
@[simp] theorem State.setPhase_lastErr (s : State) (p : Phase) : (s.setPhase p).lastErr = s.lastErr := rfl
@[simp] theorem State.setPhase_errSeen (s : State) (p : Phase) : (s.setPhase p).errSeen = s.errSeen := rfl
@[simp] theorem State.setPhase_phase (s : State) (p : Phase) : (s.setPhase p).phase = p := rfl
@[simp] theorem State.setPhase_cmd (s : State) (p : Phase) : (s.setPhase p).cmd = s.cmd := rfl
@[simp] theorem State.setPhase_din (s : State) (p : Phase) : (s.setPhase p).din = s.din := rfl
@[simp] theorem State.setPhase_offer (s : State) (p : Phase) : (s.setPhase p).offer = s.offer := rfl
@[simp] theorem State.setPhase_rsp (s : State) (p : Phase) : (s.setPhase p).rsp = s.rsp := rfl
@[simp] theorem State.setPhase_host (s : State) (p : Phase) : (s.setPhase p).host = s.host := rfl
@[simp] theorem State.setPhase_n (s : State) (p : Phase) : (s.setPhase p).n = s.n := rfl

/-! `State.setOffer` -/

@[simp] theorem State.setOffer_r (s : State) (o : Option Transaction) : (s.setOffer o).r = s.r := rfl
@[simp] theorem State.setOffer_rv (s : State) (o : Option Transaction) : (s.setOffer o).rv = s.rv := rfl
@[simp] theorem State.setOffer_c (s : State) (o : Option Transaction) : (s.setOffer o).c = s.c := rfl
@[simp] theorem State.setOffer_cv (s : State) (o : Option Transaction) : (s.setOffer o).cv = s.cv := rfl
@[simp] theorem State.setOffer_key (s : State) (o : Option Transaction) : (s.setOffer o).key = s.key := rfl
@[simp] theorem State.setOffer_kv (s : State) (o : Option Transaction) : (s.setOffer o).kv = s.kv := rfl
@[simp] theorem State.setOffer_ctr (s : State) (o : Option Transaction) : (s.setOffer o).ctr = s.ctr := rfl
@[simp] theorem State.setOffer_tv (s : State) (o : Option Transaction) : (s.setOffer o).tv = s.tv := rfl
@[simp] theorem State.setOffer_lastErr (s : State) (o : Option Transaction) : (s.setOffer o).lastErr = s.lastErr := rfl
@[simp] theorem State.setOffer_errSeen (s : State) (o : Option Transaction) : (s.setOffer o).errSeen = s.errSeen := rfl
@[simp] theorem State.setOffer_phase (s : State) (o : Option Transaction) : (s.setOffer o).phase = s.phase := rfl
@[simp] theorem State.setOffer_cmd (s : State) (o : Option Transaction) : (s.setOffer o).cmd = s.cmd := rfl
@[simp] theorem State.setOffer_din (s : State) (o : Option Transaction) : (s.setOffer o).din = s.din := rfl
@[simp] theorem State.setOffer_offer (s : State) (o : Option Transaction) : (s.setOffer o).offer = o := rfl
@[simp] theorem State.setOffer_rsp (s : State) (o : Option Transaction) : (s.setOffer o).rsp = s.rsp := rfl
@[simp] theorem State.setOffer_host (s : State) (o : Option Transaction) : (s.setOffer o).host = s.host := rfl
@[simp] theorem State.setOffer_n (s : State) (o : Option Transaction) : (s.setOffer o).n = s.n := rfl

/-! `State.moveOn` -/

@[simp] theorem State.moveOn_r (s : State) : (s.moveOn).r = s.r := rfl
@[simp] theorem State.moveOn_rv (s : State) : (s.moveOn).rv = s.rv := rfl
@[simp] theorem State.moveOn_c (s : State) : (s.moveOn).c = s.c := rfl
@[simp] theorem State.moveOn_cv (s : State) : (s.moveOn).cv = s.cv := rfl
@[simp] theorem State.moveOn_key (s : State) : (s.moveOn).key = s.key := rfl
@[simp] theorem State.moveOn_kv (s : State) : (s.moveOn).kv = s.kv := rfl
@[simp] theorem State.moveOn_ctr (s : State) : (s.moveOn).ctr = s.ctr := rfl
@[simp] theorem State.moveOn_tv (s : State) : (s.moveOn).tv = s.tv := rfl
@[simp] theorem State.moveOn_lastErr (s : State) : (s.moveOn).lastErr = s.lastErr := rfl
@[simp] theorem State.moveOn_errSeen (s : State) : (s.moveOn).errSeen = s.errSeen := rfl
@[simp] theorem State.moveOn_phase (s : State) : (s.moveOn).phase = s.phase := rfl
@[simp] theorem State.moveOn_cmd (s : State) : (s.moveOn).cmd = s.cmd := rfl
@[simp] theorem State.moveOn_din (s : State) : (s.moveOn).din = s.din := rfl
@[simp] theorem State.moveOn_offer (s : State) : (s.moveOn).offer = s.offer := rfl
@[simp] theorem State.moveOn_rsp (s : State) : (s.moveOn).rsp = s.rsp := rfl
@[simp] theorem State.moveOn_host (s : State) : (s.moveOn).host = s.host := rfl
@[simp] theorem State.moveOn_n (s : State) : (s.moveOn).n = s.n + 1 := rfl

/-! `State.resetEdge` -/

@[simp] theorem State.resetEdge_r (s : State) : (s.resetEdge).r = (Config.resetContents s.n s.contents).r := rfl
@[simp] theorem State.resetEdge_rv (s : State) : (s.resetEdge).rv = 0#8 := rfl
@[simp] theorem State.resetEdge_c (s : State) : (s.resetEdge).c = (Config.resetContents s.n s.contents).c := rfl
@[simp] theorem State.resetEdge_cv (s : State) : (s.resetEdge).cv = false := rfl
@[simp] theorem State.resetEdge_key (s : State) : (s.resetEdge).key = (Config.resetContents s.n s.contents).key := rfl
@[simp] theorem State.resetEdge_kv (s : State) : (s.resetEdge).kv = false := rfl
@[simp] theorem State.resetEdge_ctr (s : State) : (s.resetEdge).ctr = (Config.resetContents s.n s.contents).ctr := rfl
@[simp] theorem State.resetEdge_tv (s : State) : (s.resetEdge).tv = false := rfl
@[simp] theorem State.resetEdge_lastErr (s : State) : (s.resetEdge).lastErr = 0#4 := rfl
@[simp] theorem State.resetEdge_errSeen (s : State) : (s.resetEdge).errSeen = false := rfl
@[simp] theorem State.resetEdge_phase (s : State) : (s.resetEdge).phase = .idle := rfl
@[simp] theorem State.resetEdge_cmd (s : State) : (s.resetEdge).cmd = s.cmd := rfl
@[simp] theorem State.resetEdge_din (s : State) : (s.resetEdge).din = s.din := rfl
@[simp] theorem State.resetEdge_offer (s : State) : (s.resetEdge).offer = none := rfl
@[simp] theorem State.resetEdge_rsp (s : State) : (s.resetEdge).rsp = none := rfl
@[simp] theorem State.resetEdge_host (s : State) : (s.resetEdge).host = s.host := rfl
@[simp] theorem State.resetEdge_n (s : State) : (s.resetEdge).n = s.n := rfl

end Sys2Proof.Machine
end

