-- ==== Sys2Proof/Laws/Ops.lean ====
section
/-! SUPPORT. The registers read through their accessors, and one lemma per shared operation that says all it can do. -/

namespace Sys2Proof.Machine

/-! Reading a register after a write. -/

theorem getLsbD_markValid (rv : BitVec 8) (i j : RegIdx) :
    (markValid rv i).getLsbD j.val = (decide (j = i) || rv.getLsbD j.val) := by
  have key : (1#8 <<< i.val).getLsbD j.val = decide (j = i) := by
    revert i j; decide
  rw [markValid, BitVec.getLsbD_or, key, Bool.or_comm]

theorem State.reg_setReg (s : State) (i j : RegIdx) (v : Word) :
    (s.setReg i v).reg j = if j = i then v else s.reg j := by
  by_cases h : j = i
  · subst h; simp [State.reg]
  · have : i.val ≠ j.val := fun e => h (Fin.ext e.symm)
    simp [State.reg, h, this]

@[simp] theorem State.reg_setReg_same (s : State) (i : RegIdx) (v : Word) : (s.setReg i v).reg i = v := by
  simp [State.reg_setReg]

theorem State.reg_setReg_other (s : State) {i j : RegIdx} (h : j ≠ i) (v : Word) :
    (s.setReg i v).reg j = s.reg j := by
  simp [State.reg_setReg, h]

theorem State.valid_setReg (s : State) (i j : RegIdx) (v : Word) :
    (s.setReg i v).valid j = (decide (j = i) || s.valid j) :=
  getLsbD_markValid s.rv i j

@[simp] theorem State.valid_setReg_same (s : State) (i : RegIdx) (v : Word) : (s.setReg i v).valid i = true := by
  simp [State.valid_setReg]

theorem State.valid_setReg_other (s : State) {i j : RegIdx} (h : j ≠ i) (v : Word) :
    (s.setReg i v).valid j = s.valid j := by
  simp [State.valid_setReg, h]

/-! The other updates leave the data registers alone. -/

@[simp] theorem State.reg_setConst (s : State) (v : Word) (i : RegIdx) : (s.setConst v).reg i = s.reg i := rfl
@[simp] theorem State.reg_setKey (s : State) (v : Word) (i : RegIdx) : (s.setKey v).reg i = s.reg i := rfl
@[simp] theorem State.reg_setCtr (s : State) (v : Word) (i : RegIdx) : (s.setCtr v).reg i = s.reg i := rfl
@[simp] theorem State.reg_advanceCtr (s : State) (i : RegIdx) : s.advanceCtr.reg i = s.reg i := rfl
@[simp] theorem State.reg_respond (s : State) (st : Status) (d : Word) (i : RegIdx) : (s.respond st d).reg i = s.reg i := rfl
@[simp] theorem State.reg_succeed (s : State) (d : Word) (i : RegIdx) : (s.succeed d).reg i = s.reg i := rfl
@[simp] theorem State.reg_fail (s : State) (st : Status) (i : RegIdx) : (s.fail st).reg i = s.reg i := rfl
@[simp] theorem State.reg_accept (s : State) (x : Transaction) (i : RegIdx) : (s.accept x).reg i = s.reg i := rfl
@[simp] theorem State.reg_setPhase (s : State) (p : Phase) (i : RegIdx) : (s.setPhase p).reg i = s.reg i := rfl
@[simp] theorem State.reg_setOffer (s : State) (o : Option Transaction) (i : RegIdx) : (s.setOffer o).reg i = s.reg i := rfl
@[simp] theorem State.reg_moveOn (s : State) (i : RegIdx) : s.moveOn.reg i = s.reg i := rfl
@[simp] theorem State.valid_setPhase (s : State) (p : Phase) (i : RegIdx) : (s.setPhase p).valid i = s.valid i := rfl
@[simp] theorem State.valid_setOffer (s : State) (o : Option Transaction) (i : RegIdx) :
    (s.setOffer o).valid i = s.valid i := rfl
@[simp] theorem State.valid_moveOn (s : State) (i : RegIdx) : s.moveOn.valid i = s.valid i := rfl
@[simp] theorem State.valid_setConst (s : State) (v : Word) (i : RegIdx) : (s.setConst v).valid i = s.valid i := rfl
@[simp] theorem State.valid_setKey (s : State) (v : Word) (i : RegIdx) : (s.setKey v).valid i = s.valid i := rfl
@[simp] theorem State.valid_setCtr (s : State) (v : Word) (i : RegIdx) : (s.setCtr v).valid i = s.valid i := rfl
@[simp] theorem State.valid_advanceCtr (s : State) (i : RegIdx) : s.advanceCtr.valid i = s.valid i := rfl
@[simp] theorem State.valid_respond (s : State) (st : Status) (d : Word) (i : RegIdx) :
    (s.respond st d).valid i = s.valid i := rfl
@[simp] theorem State.valid_succeed (s : State) (d : Word) (i : RegIdx) : (s.succeed d).valid i = s.valid i := rfl
@[simp] theorem State.valid_fail (s : State) (st : Status) (i : RegIdx) : (s.fail st).valid i = s.valid i := rfl
@[simp] theorem State.valid_accept (s : State) (x : Transaction) (i : RegIdx) : (s.accept x).valid i = s.valid i := rfl
@[simp] theorem State.valid_resetEdge (s : State) (i : RegIdx) : s.resetEdge.valid i = false := by
  simp [State.valid]

/-! An update after an update. -/

@[simp] theorem State.setPhase_setPhase (s : State) (p q : Phase) : (s.setPhase p).setPhase q = s.setPhase q := rfl
@[simp] theorem State.setOffer_setOffer (s : State) (o o' : Option Transaction) : (s.setOffer o).setOffer o' = s.setOffer o' := rfl
theorem State.setOffer_setPhase (s : State) (o : Option Transaction) (p : Phase) :
    (s.setOffer o).setPhase p = (s.setPhase p).setOffer o := rfl
theorem State.setPhase_self {s : State} {p : Phase} (h : s.phase = p) : s.setPhase p = s := by subst h; rfl
theorem State.setOffer_self {s : State} {o : Option Transaction} (h : s.offer = o) : s.setOffer o = s := by subst h; rfl
@[simp] theorem State.asksCipher_setPhase (s : State) (p : Phase) : (s.setPhase p).asksCipher = s.asksCipher := rfl
@[simp] theorem State.asksCipher_setOffer (s : State) (o : Option Transaction) : (s.setOffer o).asksCipher = s.asksCipher := rfl
@[simp] theorem State.stat_setPhase (s : State) (p : Phase) : (s.setPhase p).stat = s.stat := rfl
@[simp] theorem State.stat_accept (s : State) (x : Transaction) : (s.accept x).stat = s.stat := rfl

/-- Two states with the same registers read alike. -/
theorem State.reg_congr {s t : State} (h : t.r = s.r) (i : RegIdx) : t.reg i = s.reg i := by
  simp [State.reg, h]

/-- Two states with the same valid bits are alike in them. -/
theorem State.valid_congr {s t : State} (h : t.rv = s.rv) (i : RegIdx) : t.valid i = s.valid i := by
  simp [State.valid, h]

/-! The checks: each passes, or the command fails with its status. -/

@[simp] theorem State.require_true (s : State) (st : Status) (k : Result) : s.require true st k = k := rfl
@[simp] theorem State.require_false (s : State) (st : Status) (k : Result) :
    s.require false st k = .next (s.fail st) := rfl

theorem State.require_next {s t : State} {ok : Bool} {st : Status} {k : Result} (h : s.require ok st k = .next t) :
    (ok = true ∧ k = .next t) ∨ (ok = false ∧ t = s.fail st) := by
  cases ok
  · exact .inr ⟨rfl, by simpa using h.symm⟩
  · exact .inl ⟨rfl, h⟩

theorem State.source_next {s t : State} {i : RegIdx} {k : Word → Result} (h : s.source i k = .next t) :
    (s.valid i = true ∧ k (s.reg i) = .next t) ∨ (s.valid i = false ∧ t = s.fail .uninit) :=
  State.require_next h

theorem State.source_valid {s : State} {i : RegIdx} (h : s.valid i = true) (k : Word → Result) :
    s.source i k = k (s.reg i) := by simp [State.source, h]

theorem State.source_unwritten {s : State} {i : RegIdx} (h : s.valid i = false) (k : Word → Result) :
    s.source i k = .next (s.fail .uninit) := by simp [State.source, h]

theorem State.constant_next {s t : State} {k : Word → Result} (h : s.constant k = .next t) :
    (s.cv = true ∧ k s.c = .next t) ∨ (s.cv = false ∧ t = s.fail .cUnset) :=
  State.require_next h

theorem State.unlocked_next {s t : State} {k : Result} (h : s.unlocked k = .next t) :
    (s.cv = false ∧ k = .next t) ∨ (s.cv = true ∧ t = s.fail .cLocked) := by
  rcases State.require_next h with ⟨h1, h2⟩ | ⟨h1, h2⟩
  · exact .inl ⟨by simpa using h1, h2⟩
  · exact .inr ⟨by simpa using h1, h2⟩

theorem State.cipherKey_next {s t : State} {k : Word → Result} (h : s.cipherKey k = .next t) :
    (s.kv = true ∧ k s.key = .next t) ∨ (s.kv = false ∧ t = s.fail .keyUnset) :=
  State.require_next h

theorem State.counter_next {s t : State} {k : Word → Result} (h : s.counter k = .next t) :
    (s.tv = true ∧ k s.ctr = .next t) ∨ (s.tv = false ∧ t = s.fail .ctrUnset) :=
  State.require_next h

theorem State.applyKeystream_next {s t : State} {rd : RegIdx} {v : Word} {a : Config.CipherAnswer}
    (h : s.applyKeystream rd v a = .next t) :
    (a = .failure ∧ t = s.fail .primFail) ∨
    (∃ ks, a = .block ks ∧ t = ((s.setReg rd (v ^^^ ks)).advanceCtr).succeed 0#128) := by
  cases a with
  | failure => exact .inl ⟨rfl, by simpa [State.applyKeystream] using h.symm⟩
  | block ks => exact .inr ⟨ks, rfl, by simpa [State.applyKeystream] using h.symm⟩

/-! Commands and moves. -/

@[simp] theorem mapNext_next (f : State → State) (s : State) : mapNext f (.next s) = .next (f s) := rfl

@[simp] theorem mapNext_ite (f : State → State) (c : Prop) [Decidable c] (a b : Result) :
    mapNext f (if c then a else b) = if c then mapNext f a else mapNext f b := by
  split <;> rfl

theorem mapNext_eq_next {f : State → State} {o : Result} {t : State} (h : mapNext f o = .next t) :
    ∃ u, o = .next u ∧ t = f u := by
  cases o with
  | next u => exact ⟨u, rfl, by simpa using h.symm⟩
  | fault a => cases a
  | refused a => simp [mapNext] at h

theorem runCommand_instr {s : State} {i : Instr} (h : decode s.cmd = .instr i) : runCommand s = exec i s := by
  simp [runCommand, h]

theorem runCommand_illegal {s : State} {why : Illegal} (h : decode s.cmd = .illegal why) :
    runCommand s = .next (s.fail .illegal) := by
  simp [runCommand, h]

theorem runCommand_next {s t : State} (h : runCommand s = .next t) :
    (∃ i, decode s.cmd = .instr i ∧ exec i s = .next t) ∨
    (∃ why, decode s.cmd = .illegal why ∧ t = s.fail .illegal) := by
  cases hd : decode s.cmd with
  | instr i => exact .inl ⟨i, rfl, by rwa [runCommand_instr hd] at h⟩
  | illegal why => exact .inr ⟨why, rfl, by simpa [runCommand_illegal hd] using h.symm⟩

/-- A command move either is a whole command, or waits because a command is in progress. -/
theorem commandMove_next {s t : State} {x : Transaction} (h : commandMove x s = .next t) :
    (s.phase = .idle ∧ s.keepsOffer (some x) = true ∧
      ∃ u, runCommand (s.accept x) = .next u ∧ t = u.moveOn) ∨
    (s.phase ≠ .idle ∧ t = s) := by
  unfold commandMove at h
  split at h
  · rename_i hp
    split at h
    · rename_i hk
      exact .inl ⟨hp, hk, mapNext_eq_next h⟩
    · cases h
  · rename_i hp
    exact .inr ⟨hp, by simpa using h.symm⟩

/-- One step is one move of the host's list, or nothing if there is none left. -/
theorem step_next {s t : State} (h : step s = .next t) :
    (s.host[s.n]? = none ∧ t = s) ∨
    (∃ x, s.host[s.n]? = some (.command x) ∧ commandMove x s = .next t) ∨
    (∃ p u, s.host[s.n]? = some (.edge p) ∧ clockEdge p s = .next u ∧ t = u.moveOn) := by
  unfold step at h
  split at h
  · exact .inl ⟨‹_›, by simpa using h.symm⟩
  · exact .inr (.inl ⟨_, ‹_›, h⟩)
  · obtain ⟨u, h1, h2⟩ := mapNext_eq_next h
    exact .inr (.inr ⟨_, u, ‹_›, h1, h2⟩)

/-- Finishing a command performs it and offers its response. -/
theorem State.finish_next {s t : State} (h : s.finish = .next t) :
    ∃ u, runCommand s = .next u ∧ t = u.setPhase .responding :=
  mapNext_eq_next h

theorem State.takeAnswer_next {s t : State} {p : PinsIn} (h : s.takeAnswer p = .next t) :
    p.answer = Config.cipher s.key s.ctr ∧ s.finish = .next t := by
  unfold State.takeAnswer at h
  split at h
  · exact ⟨‹_›, h⟩
  · cases h

/-- An edge resets, or keeps the host's duty and goes on by its phase. -/
theorem clockEdge_next {s t : State} {p : PinsIn} (h : clockEdge p s = .next t) :
    (p.rst = true ∧ t = s.resetEdge) ∨
    (p.rst = false ∧ s.keepsOffer p.offered = true ∧
      (s.setOffer p.offered).edgeByPhase p = .next t) := by
  unfold clockEdge at h
  split at h
  · exact .inl ⟨‹_›, by simpa using h.symm⟩
  · split at h
    · exact .inr ⟨by simpa using ‹¬ p.rst = true›, ‹_›, h⟩
    · cases h

/-- All that the block can do at an edge without reset. -/
theorem State.edgeByPhase_next {s t : State} {p : PinsIn} (h : s.edgeByPhase p = .next t) :
    (s.phase = .idle ∧ p.cmdValid = true ∧
      t = (s.accept ⟨p.cmd, p.din⟩).setPhase (.working Config.extraLatency)) ∨
    (∃ left, s.phase = .working (left + 1) ∧ t = s.setPhase (.working left)) ∨
    (s.phase = .working 0 ∧ s.asksCipher = true ∧ t = s.setPhase .requesting) ∨
    (s.phase = .working 0 ∧ s.asksCipher = false ∧ s.finish = .next t) ∨
    (s.phase = .requesting ∧ p.eReqReady = true ∧ p.eRspValid = false ∧ t = s.setPhase .awaiting) ∨
    ((s.phase = .requesting ∧ p.eReqReady = true ∨ s.phase = .awaiting) ∧ p.eRspValid = true ∧
      p.answer = Config.cipher s.key s.ctr ∧ s.finish = .next t) ∨
    (s.phase = .responding ∧ p.rspReady = true ∧ t = s.setPhase .idle) ∨
    ((s.phase = .idle ∧ p.cmdValid = false ∨ s.phase = .requesting ∧ p.eReqReady = false ∨
      s.phase = .awaiting ∧ p.eRspValid = false ∨ s.phase = .responding ∧ p.rspReady = false) ∧ t = s) := by
  unfold State.edgeByPhase at h
  split at h <;> rename_i hp
  · split at h
    · simp_all
    · simp_all
  · simp_all
  · split at h
    · simp_all
    · simp_all
  · split at h
    · split at h
      · have := State.takeAnswer_next h
        simp_all
      · simp_all
    · simp_all
  · split at h
    · have := State.takeAnswer_next h
      simp_all
    · simp_all
  · split at h
    · simp_all
    · simp_all

end Sys2Proof.Machine
end

