-- ==== Sys2Proof/Laws/Exec.lean ====
section
/-! SUPPORT. One inversion lemma per instruction with checks: the next state is one of these and no other. -/

namespace Sys2Proof.Machine

theorem execRead_next {s t : State} {rs1 : RegIdx} (h : execRead rs1 s = .next t) :
    (s.valid rs1 = false ∧ t = s.fail .uninit) ∨ (s.valid rs1 = true ∧ t = s.succeed (s.reg rs1)) := by
  rcases State.source_next h with ⟨h1, h2⟩ | h1
  · exact .inr ⟨h1, by simpa using h2.symm⟩
  · exact .inl h1

/-- The shape of XOR and ADD: two sources, then a write of rd. -/
theorem twoSources_next {s t : State} {rd rs1 rs2 : RegIdx} {f : Word → Word → Word}
    (h : (s.source rs1 fun a => s.source rs2 fun b => .next ((s.setReg rd (f a b)).succeed 0#128)) = .next t) :
    (s.valid rs1 = false ∧ t = s.fail .uninit) ∨
    (s.valid rs1 = true ∧ s.valid rs2 = false ∧ t = s.fail .uninit) ∨
    (s.valid rs1 = true ∧ s.valid rs2 = true ∧
      t = (s.setReg rd (f (s.reg rs1) (s.reg rs2))).succeed 0#128) := by
  rcases State.source_next h with ⟨h1, h⟩ | h1
  · rcases State.source_next h with ⟨h2, h⟩ | h2
    · exact .inr (.inr ⟨h1, h2, by simpa using h.symm⟩)
    · exact .inr (.inl ⟨h1, h2⟩)
  · exact .inl h1

theorem execXor_next {s t : State} {rd rs1 rs2 : RegIdx} (h : execXor rd rs1 rs2 s = .next t) :
    (s.valid rs1 = false ∧ t = s.fail .uninit) ∨
    (s.valid rs1 = true ∧ s.valid rs2 = false ∧ t = s.fail .uninit) ∨
    (s.valid rs1 = true ∧ s.valid rs2 = true ∧
      t = (s.setReg rd (s.reg rs1 ^^^ s.reg rs2)).succeed 0#128) :=
  twoSources_next (f := fun a b => a ^^^ b) h

theorem execAdd_next {s t : State} {rd rs1 rs2 : RegIdx} (h : execAdd rd rs1 rs2 s = .next t) :
    (s.valid rs1 = false ∧ t = s.fail .uninit) ∨
    (s.valid rs1 = true ∧ s.valid rs2 = false ∧ t = s.fail .uninit) ∨
    (s.valid rs1 = true ∧ s.valid rs2 = true ∧
      t = (s.setReg rd (add128 (s.reg rs1) (s.reg rs2))).succeed 0#128) :=
  twoSources_next h

theorem execAdds_next {s t : State} {rd rs1 : RegIdx} {imm : BitVec 32} (h : execAdds rd rs1 imm s = .next t) :
    (s.valid rs1 = false ∧ t = s.fail .uninit) ∨
    (s.valid rs1 = true ∧ t = (s.setReg rd (add128 (s.reg rs1) (zextImm imm))).succeed 0#128) := by
  rcases State.source_next h with ⟨h1, h2⟩ | h1
  · exact .inr ⟨h1, by simpa using h2.symm⟩
  · exact .inl h1

theorem execRotl_next {s t : State} {rd rs1 : RegIdx} {imm : BitVec 32} (h : execRotl rd rs1 imm s = .next t) :
    (s.valid rs1 = false ∧ t = s.fail .uninit) ∨
    (s.valid rs1 = true ∧ t = (s.setReg rd (rotl128 (s.reg rs1) imm.toNat)).succeed 0#128) := by
  rcases State.source_next h with ⟨h1, h2⟩ | h1
  · exact .inr ⟨h1, by simpa using h2.symm⟩
  · exact .inl h1

theorem execSetc_next {s t : State} {rs1 : RegIdx} (h : execSetc rs1 s = .next t) :
    (s.valid rs1 = false ∧ t = s.fail .uninit) ∨
    (s.valid rs1 = true ∧ s.cv = true ∧ t = s.fail .cLocked) ∨
    (s.valid rs1 = true ∧ s.cv = false ∧ t = (s.setConst (s.reg rs1)).succeed 0#128) := by
  rcases State.source_next h with ⟨h1, h⟩ | h1
  · rcases State.unlocked_next h with ⟨h2, h⟩ | h2
    · exact .inr (.inr ⟨h1, h2, by simpa using h.symm⟩)
    · exact .inr (.inl ⟨h1, h2⟩)
  · exact .inl h1

/-- The shape of SCRAM and KEYGEN: two sources and C, then an update. -/
theorem twoSourcesConst_next {s t : State} {rs1 rs2 : RegIdx} {f : Word → Word → Word → State}
    (h : (s.source rs1 fun a => s.source rs2 fun b => s.constant fun c => .next (f a b c)) = .next t) :
    (s.valid rs1 = false ∧ t = s.fail .uninit) ∨
    (s.valid rs1 = true ∧ s.valid rs2 = false ∧ t = s.fail .uninit) ∨
    (s.valid rs1 = true ∧ s.valid rs2 = true ∧ s.cv = false ∧ t = s.fail .cUnset) ∨
    (s.valid rs1 = true ∧ s.valid rs2 = true ∧ s.cv = true ∧ t = f (s.reg rs1) (s.reg rs2) s.c) := by
  rcases State.source_next h with ⟨h1, h⟩ | h1
  · rcases State.source_next h with ⟨h2, h⟩ | h2
    · rcases State.constant_next h with ⟨h3, h⟩ | h3
      · exact .inr (.inr (.inr ⟨h1, h2, h3, by simpa using h.symm⟩))
      · exact .inr (.inr (.inl ⟨h1, h2, h3⟩))
    · exact .inr (.inl ⟨h1, h2⟩)
  · exact .inl h1

theorem execScram_next {s t : State} {rd rs1 rs2 : RegIdx} (h : execScram rd rs1 rs2 s = .next t) :
    (s.valid rs1 = false ∧ t = s.fail .uninit) ∨
    (s.valid rs1 = true ∧ s.valid rs2 = false ∧ t = s.fail .uninit) ∨
    (s.valid rs1 = true ∧ s.valid rs2 = true ∧ s.cv = false ∧ t = s.fail .cUnset) ∨
    (s.valid rs1 = true ∧ s.valid rs2 = true ∧ s.cv = true ∧
      t = (s.setReg rd (scramble (s.reg rs1) (s.reg rs2) s.c)).succeed 0#128) :=
  twoSourcesConst_next (f := fun a b c => (s.setReg rd (scramble a b c)).succeed 0#128) h

theorem execSetkey_next {s t : State} {rs1 : RegIdx} (h : execSetkey rs1 s = .next t) :
    (s.valid rs1 = false ∧ t = s.fail .uninit) ∨
    (s.valid rs1 = true ∧ t = (s.setKey (s.reg rs1)).succeed 0#128) := by
  rcases State.source_next h with ⟨h1, h2⟩ | h1
  · exact .inr ⟨h1, by simpa using h2.symm⟩
  · exact .inl h1

theorem execKeygen_next {s t : State} {rs1 rs2 : RegIdx} (h : execKeygen rs1 rs2 s = .next t) :
    (s.valid rs1 = false ∧ t = s.fail .uninit) ∨
    (s.valid rs1 = true ∧ s.valid rs2 = false ∧ t = s.fail .uninit) ∨
    (s.valid rs1 = true ∧ s.valid rs2 = true ∧ s.cv = false ∧ t = s.fail .cUnset) ∨
    (s.valid rs1 = true ∧ s.valid rs2 = true ∧ s.cv = true ∧
      t = (s.setKey (scramble (s.reg rs1) (s.reg rs2) s.c)).succeed 0#128) :=
  twoSourcesConst_next (f := fun a b c => (s.setKey (scramble a b c)).succeed 0#128) h

theorem execSetctr_next {s t : State} {rs1 : RegIdx} (h : execSetctr rs1 s = .next t) :
    (s.valid rs1 = false ∧ t = s.fail .uninit) ∨
    (s.valid rs1 = true ∧ t = (s.setCtr (s.reg rs1)).succeed 0#128) := by
  rcases State.source_next h with ⟨h1, h2⟩ | h1
  · exact .inr ⟨h1, by simpa using h2.symm⟩
  · exact .inl h1

theorem execGetctr_next {s t : State} {rd : RegIdx} (h : execGetctr rd s = .next t) :
    (s.tv = false ∧ t = s.fail .ctrUnset) ∨ (s.tv = true ∧ t = (s.setReg rd s.ctr).succeed 0#128) := by
  rcases State.counter_next h with ⟨h1, h2⟩ | h1
  · exact .inr ⟨h1, by simpa using h2.symm⟩
  · exact .inl h1

theorem ctrxWith_next {E : Word → Word → Config.CipherAnswer} {s t : State} {rd rs1 : RegIdx}
    (h : ctrxWith E rd rs1 s = .next t) :
    (s.valid rs1 = false ∧ t = s.fail .uninit) ∨
    (s.valid rs1 = true ∧ s.kv = false ∧ t = s.fail .keyUnset) ∨
    (s.valid rs1 = true ∧ s.kv = true ∧ s.tv = false ∧ t = s.fail .ctrUnset) ∨
    (s.valid rs1 = true ∧ s.kv = true ∧ s.tv = true ∧ E s.key s.ctr = .failure ∧ t = s.fail .primFail) ∨
    (s.valid rs1 = true ∧ s.kv = true ∧ s.tv = true ∧ ∃ ks, E s.key s.ctr = .block ks ∧
      t = ((s.setReg rd (s.reg rs1 ^^^ ks)).advanceCtr).succeed 0#128) := by
  rcases State.source_next h with ⟨h1, h⟩ | h1
  · rcases State.cipherKey_next h with ⟨h2, h⟩ | h2
    · rcases State.counter_next h with ⟨h3, h⟩ | h3
      · rcases State.applyKeystream_next h with h4 | h4
        · exact .inr (.inr (.inr (.inl ⟨h1, h2, h3, h4⟩)))
        · exact .inr (.inr (.inr (.inr ⟨h1, h2, h3, h4⟩)))
      · exact .inr (.inr (.inl ⟨h1, h2, h3⟩))
    · exact .inr (.inl ⟨h1, h2⟩)
  · exact .inl h1

end Sys2Proof.Machine
end

