-- ==== Sys2Proof/Laws/Safety.lean ====
section
/-! SUPPORT. The shared completions, in the terms of Safety.lean. -/

namespace Sys2Proof.Machine

/-- A failure changes only LASTERR, ERRSEEN and the response. -/
theorem endsWith_fail (s : State) (st : Status) : EndsWith st s (s.fail st) :=
  ⟨⟨rfl, rfl⟩, ⟨rfl, rfl⟩, ⟨rfl, rfl⟩, ⟨rfl, rfl⟩, ⟨rfl, rfl, rfl, rfl, rfl, rfl⟩, rfl, rfl, rfl⟩

theorem endsOk_succeed (s : State) (d : Word) : EndsOk d s (s.succeed d) := ⟨rfl, rfl, rfl⟩

theorem hostSideKept_succeed (s : State) (d : Word) : HostSideKept s (s.succeed d) := ⟨rfl, rfl, rfl, rfl, rfl, rfl⟩

/-- A register write and a success change that register and its valid bit, LASTERR and the response only. -/
theorem writesOnlyReg_setReg (s : State) (rd : RegIdx) (v : Word) :
    WritesOnlyReg rd v s ((s.setReg rd v).succeed 0#128) :=
  ⟨by simp, by simp, fun i h => ⟨by simp [State.reg_setReg_other s h], by simp [State.valid_setReg_other s h]⟩,
    ⟨rfl, rfl⟩, ⟨rfl, rfl⟩, ⟨rfl, rfl⟩, ⟨rfl, rfl, rfl, rfl, rfl, rfl⟩, rfl, rfl, rfl⟩

/-- A host that has nothing on offer may offer anything. -/
@[simp] theorem keepsOffer_none {s : State} (h : s.offer = none) (now : Option Transaction) :
    s.keepsOffer now = true := by
  simp [State.keepsOffer, h]

/-- A refused instruction would have no next state; a sequence of instructions goes on from each next state. -/
theorem execAll_cons_next {i : Instr} {is : List Instr} {s u : State} (h : exec i s = .next u) :
    execAll (i :: is) s = execAll is u := by
  simp [execAll, h]

theorem clockEdges_cons_next {p : PinsIn} {ps : List PinsIn} {s u : State} (h : clockEdge p s = .next u) :
    clockEdges (p :: ps) s = clockEdges ps u := by
  simp [clockEdges, h]

theorem clockEdges_append_next {ps qs : List PinsIn} {s u : State} (h : clockEdges ps s = .next u) :
    clockEdges (ps ++ qs) s = clockEdges qs u := by
  induction ps generalizing s with
  | nil => simp_all [clockEdges]
  | cons p ps ih =>
    cases hp : clockEdge p s with
    | next t => simp_all [clockEdges]
    | fault a => cases a
    | refused a => simp [clockEdges, hp] at h

/-- A run of the machine goes on from the next state of its first step. -/
theorem core_run_next {k : Nat} {s t : State} (h : step s = .next t) :
    Host.Core.run Sys2Proof.core (k + 1) s = Host.Core.run Sys2Proof.core k t := by
  have h' : Sys2Proof.core.step s = .next t := h
  simp only [Host.Core.run, h']

/-- A run of the machine stops at a refusal. -/
theorem core_run_refused {k : Nat} {s : State} {a : Refusal} (h : step s = .refused a) :
    Host.Core.run Sys2Proof.core (k + 1) s = .refused a := by
  have h' : Sys2Proof.core.step s = .refused a := h
  simp only [Host.Core.run, h']

end Sys2Proof.Machine
end

