-- ==== Sys2Proof/Laws/Command.lean ====
section
/-! SUPPORT. What any instruction and any command can do, said once (60_exceptions R212 to R214). -/

namespace Sys2Proof.Machine

/-- All an instruction can do: its first failing check ends it, or it has its effect and answers OK (60_exceptions R212 to
R214). -/
theorem exec_cases {i : Instr} {s t : State} (h : exec i s = .next t) :
    (∃ st, st ≠ .ok ∧ check Config.cipher i s = st ∧ t = s.fail st) ∨
    (check Config.cipher i s = .ok ∧ i = .rdstat ∧ t = s.respond .ok (s.stat.setWidth 128)) ∨
    (check Config.cipher i s = .ok ∧ i ≠ .rdstat ∧
      t = (perform Config.cipher i s).1.succeed (perform Config.cipher i s).2) := by
  cases i with
  | nop => cases h; exact .inr (.inr ⟨rfl, by simp, rfl⟩)
  | load rd => cases h; exact .inr (.inr ⟨rfl, by simp, rfl⟩)
  | rdstat => cases h; exact .inr (.inl ⟨rfl, rfl, rfl⟩)
  | read a =>
    rcases execRead_next h with ⟨h1, rfl⟩ | ⟨h1, rfl⟩
    · exact .inl ⟨.uninit, by simp, by simp [check, sourcesOf, h1], rfl⟩
    · exact .inr (.inr ⟨by simp [check, sourcesOf, h1, usesConst, isSetc, isCtrx, isGetctr], by simp, rfl⟩)
  | xor rd a b =>
    rcases execXor_next h with ⟨h1, rfl⟩ | ⟨h1, h2, rfl⟩ | ⟨h1, h2, rfl⟩
    · exact .inl ⟨.uninit, by simp, by simp [check, sourcesOf, h1], rfl⟩
    · exact .inl ⟨.uninit, by simp, by simp [check, sourcesOf, h1, h2], rfl⟩
    · exact .inr (.inr ⟨by simp [check, sourcesOf, h1, h2, usesConst, isSetc, isCtrx, isGetctr], by simp, rfl⟩)
  | add rd a b =>
    rcases execAdd_next h with ⟨h1, rfl⟩ | ⟨h1, h2, rfl⟩ | ⟨h1, h2, rfl⟩
    · exact .inl ⟨.uninit, by simp, by simp [check, sourcesOf, h1], rfl⟩
    · exact .inl ⟨.uninit, by simp, by simp [check, sourcesOf, h1, h2], rfl⟩
    · exact .inr (.inr ⟨by simp [check, sourcesOf, h1, h2, usesConst, isSetc, isCtrx, isGetctr], by simp, rfl⟩)
  | adds rd a b =>
    rcases execAdds_next h with ⟨h1, rfl⟩ | ⟨h1, rfl⟩
    · exact .inl ⟨.uninit, by simp, by simp [check, sourcesOf, h1], rfl⟩
    · exact .inr (.inr ⟨by simp [check, sourcesOf, h1, usesConst, isSetc, isCtrx, isGetctr], by simp, rfl⟩)
  | rotl rd a b =>
    rcases execRotl_next h with ⟨h1, rfl⟩ | ⟨h1, rfl⟩
    · exact .inl ⟨.uninit, by simp, by simp [check, sourcesOf, h1], rfl⟩
    · exact .inr (.inr ⟨by simp [check, sourcesOf, h1, usesConst, isSetc, isCtrx, isGetctr], by simp, rfl⟩)
  | setc a =>
    rcases execSetc_next h with ⟨h1, rfl⟩ | ⟨h1, h2, rfl⟩ | ⟨h1, h2, rfl⟩
    · exact .inl ⟨.uninit, by simp, by simp [check, sourcesOf, h1], rfl⟩
    · exact .inl ⟨.cLocked, by simp, by simp [check, sourcesOf, h1, h2, usesConst, isSetc], rfl⟩
    · exact .inr (.inr ⟨by simp [check, sourcesOf, h1, h2, usesConst, isSetc, isCtrx, isGetctr], by simp, rfl⟩)
  | scram rd a b =>
    rcases execScram_next h with ⟨h1, rfl⟩ | ⟨h1, h2, rfl⟩ | ⟨h1, h2, h3, rfl⟩ | ⟨h1, h2, h3, rfl⟩
    · exact .inl ⟨.uninit, by simp, by simp [check, sourcesOf, h1], rfl⟩
    · exact .inl ⟨.uninit, by simp, by simp [check, sourcesOf, h1, h2], rfl⟩
    · exact .inl ⟨.cUnset, by simp, by simp [check, sourcesOf, h1, h2, h3, usesConst], rfl⟩
    · exact .inr (.inr ⟨by simp [check, sourcesOf, h1, h2, h3, usesConst, isSetc, isCtrx, isGetctr], by simp, rfl⟩)
  | keygen a b =>
    rcases execKeygen_next h with ⟨h1, rfl⟩ | ⟨h1, h2, rfl⟩ | ⟨h1, h2, h3, rfl⟩ | ⟨h1, h2, h3, rfl⟩
    · exact .inl ⟨.uninit, by simp, by simp [check, sourcesOf, h1], rfl⟩
    · exact .inl ⟨.uninit, by simp, by simp [check, sourcesOf, h1, h2], rfl⟩
    · exact .inl ⟨.cUnset, by simp, by simp [check, sourcesOf, h1, h2, h3, usesConst], rfl⟩
    · exact .inr (.inr ⟨by simp [check, sourcesOf, h1, h2, h3, usesConst, isSetc, isCtrx, isGetctr], by simp, rfl⟩)
  | setkey a =>
    rcases execSetkey_next h with ⟨h1, rfl⟩ | ⟨h1, rfl⟩
    · exact .inl ⟨.uninit, by simp, by simp [check, sourcesOf, h1], rfl⟩
    · exact .inr (.inr ⟨by simp [check, sourcesOf, h1, usesConst, isSetc, isCtrx, isGetctr], by simp, rfl⟩)
  | setctr a =>
    rcases execSetctr_next h with ⟨h1, rfl⟩ | ⟨h1, rfl⟩
    · exact .inl ⟨.uninit, by simp, by simp [check, sourcesOf, h1], rfl⟩
    · exact .inr (.inr ⟨by simp [check, sourcesOf, h1, usesConst, isSetc, isCtrx, isGetctr], by simp, rfl⟩)
  | getctr rd =>
    rcases execGetctr_next h with ⟨h1, rfl⟩ | ⟨h1, rfl⟩
    · exact .inl ⟨.ctrUnset, by simp, by simp [check, sourcesOf, h1, usesConst, isSetc, isCtrx, isGetctr], rfl⟩
    · exact .inr (.inr ⟨by simp [check, sourcesOf, h1, usesConst, isSetc, isCtrx, isGetctr], by simp, rfl⟩)
  | ctrx rd a =>
    rcases ctrxWith_next h with ⟨h1, rfl⟩ | ⟨h1, h2, rfl⟩ | ⟨h1, h2, h3, rfl⟩ | ⟨h1, h2, h3, h4, rfl⟩ | ⟨h1, h2, h3, ks, h4, rfl⟩
    · exact .inl ⟨.uninit, by simp, by simp [check, sourcesOf, h1], rfl⟩
    · exact .inl ⟨.keyUnset, by simp, by simp [check, sourcesOf, h1, h2, usesConst, isSetc, isCtrx], rfl⟩
    · exact .inl ⟨.ctrUnset, by simp, by simp [check, sourcesOf, h1, h2, h3, usesConst, isSetc, isCtrx], rfl⟩
    · exact .inl ⟨.primFail, by simp, by simp [check, sourcesOf, h1, h2, h3, h4, usesConst, isSetc, isCtrx], rfl⟩
    · refine .inr (.inr ⟨by simp [check, sourcesOf, h1, h2, h3, h4, usesConst, isSetc, isCtrx, isGetctr], by simp, ?_⟩)
      simp only [perform, h4]; rfl

/-- No instruction looks at the phase of the command. -/
theorem exec_setPhase (i : Instr) (s : State) (p : Phase) :
    exec i (s.setPhase p) = mapNext (fun t => t.setPhase p) (exec i s) := by
  cases i <;> simp only [exec, execNop, execLoad, execRead, execRdstat, execXor, execAdd, execAdds, execRotl, execSetc,
    execScram, execSetkey, execKeygen, execSetctr, execGetctr, execCtrx, ctrxWith, State.source, State.constant,
    State.unlocked, State.cipherKey, State.counter, State.require, State.applyKeystream, mapNext_ite, mapNext_next] <;>
    try rfl
  cases e : Config.cipher s.key s.ctr <;>
    (have e' : Config.cipher (s.setPhase p).key (s.setPhase p).ctr = _ := e; simp only [e']; rfl)

theorem runCommand_setPhase (s : State) (p : Phase) :
    runCommand (s.setPhase p) = mapNext (fun t => t.setPhase p) (runCommand s) := by
  unfold runCommand
  simp only [State.setPhase_cmd]
  split
  · exact exec_setPhase _ _ _
  · rfl

end Sys2Proof.Machine
end

