-- ==== Sys2Proof/Laws/Decode.lean ====
section
/-! SUPPORT. The pieces the decoder and the encoder are made of. -/

namespace Sys2Proof

@[simp] theorem regOf_regField (i : RegIdx) : regOf (regField i) = i := rfl
@[simp] theorem regField_regOf (b : BitVec 3) : regField (regOf b) = b := rfl

/-- A need that holds gives the instruction. -/
theorem need_instr {ok : Bool} {i j : Instr} : need ok i = .instr j ↔ ok = true ∧ i = j := by
  cases ok <;> simp [need]

/-- A need that fails, and only that, gives an illegal word. -/
theorem need_illegal {ok : Bool} {i : Instr} : (∃ why, need ok i = .illegal why) ↔ ok = false := by
  cases ok <;> simp [need]

/-- One row of the decoder: it answers here with its need met, or a later row answers. -/
theorem row_instr {c : Prop} [Decidable c] {ok : Bool} {i j : Instr} {rest : Decoded}
    (h : (if c then need ok i else rest) = .instr j) : (c ∧ ok = true ∧ i = j) ∨ (¬ c ∧ rest = .instr j) := by
  split at h
  · exact .inl ⟨‹_›, need_instr.1 h⟩
  · exact .inr ⟨‹_›, h⟩

/-- One row of the decoder, for the illegal words. -/
theorem row_illegal {c : Prop} [Decidable c] {ok : Bool} {i : Instr} {rest : Decoded} {P : Prop}
    (here : c → (ok = false ↔ P)) (later : ¬ c → ((∃ why, rest = .illegal why) ↔ P)) :
    (∃ why, (if c then need ok i else rest) = .illegal why) ↔ P := by
  split
  · rw [need_illegal]; exact here ‹_›
  · exact later ‹_›

end Sys2Proof
end

