-- ==== Sys2Proof/Laws/PerInstr.lean ====
section
/-! SUPPORT. A fact of every instruction, one lemma per constructor: the fields it is encoded with are legal
(30_encoding R83, R84). -/

namespace Sys2Proof.Laws.FieldsWellFormed

/-- The fields of the instruction pass the check of 30_encoding R85. -/
def Statement (i : Instr) : Prop := i.toFields.wellFormed = true

theorem nop : Statement .nop := rfl
theorem load (rd : RegIdx) : Statement (.load rd) := rfl
theorem read (rs1 : RegIdx) : Statement (.read rs1) := rfl
theorem rdstat : Statement .rdstat := rfl
theorem xor (rd rs1 rs2 : RegIdx) : Statement (.xor rd rs1 rs2) := rfl
theorem add (rd rs1 rs2 : RegIdx) : Statement (.add rd rs1 rs2) := rfl
theorem adds (rd rs1 : RegIdx) (imm : BitVec 32) : Statement (.adds rd rs1 imm) := rfl
theorem rotl (rd rs1 : RegIdx) (imm : BitVec 32) : Statement (.rotl rd rs1 imm) := rfl
theorem setc (rs1 : RegIdx) : Statement (.setc rs1) := rfl
theorem scram (rd rs1 rs2 : RegIdx) : Statement (.scram rd rs1 rs2) := rfl
theorem setkey (rs1 : RegIdx) : Statement (.setkey rs1) := rfl
theorem keygen (rs1 rs2 : RegIdx) : Statement (.keygen rs1 rs2) := rfl
theorem setctr (rs1 : RegIdx) : Statement (.setctr rs1) := rfl
theorem getctr (rd : RegIdx) : Statement (.getctr rd) := rfl
theorem ctrx (rd rs1 : RegIdx) : Statement (.ctrx rd rs1) := rfl

end Sys2Proof.Laws.FieldsWellFormed
end

