-- ==== Sys2Proof/Tests/Slice0.lean ====
section
/-! SUPPORT. Tests. Expected values are those of 30_encoding R89 and 95_test_vectors (the row is named in each comment), or
words written out by hand from the field positions of 30_encoding R80. Then, for every statement with hypotheses, a witness
that meets them. -/

namespace Sys2Proof.Tests

open Sys2Proof Sys2Proof.Machine

/-! ## Well-formedness: one ill-formed word for each check -/

/-- OP 0x04 is not listed (row E1). -/
theorem test_wf_unlisted_op : ({ opFields 0x04#8 with rd := 0#3 } : Fields).wellFormed = false := by decide
/-- RES must be 0 (row E3). -/
theorem test_wf_reserved : ({ opFields 0x00#8 with res := 1#15 } : Fields).wellFormed = false := by decide
/-- NOP does not use RD (row E4). -/
theorem test_wf_rd : ({ opFields 0x00#8 with rd := 1#3 } : Fields).wellFormed = false := by decide
/-- LOAD does not use RS1 (row E6). -/
theorem test_wf_rs1 : ({ opFields 0x01#8 with rs1 := 1#3 } : Fields).wellFormed = false := by decide
/-- ROTL does not use RS2 (row E7). -/
theorem test_wf_rs2 : ({ opFields 0x13#8 with rs2 := 1#3 } : Fields).wellFormed = false := by decide
/-- XOR does not use IMM32 (row E5). -/
theorem test_wf_imm : ({ opFields 0x10#8 with imm := 1#32 } : Fields).wellFormed = false := by decide
/-- ADDS uses RD, RS1 and IMM32. -/
theorem test_wf_accepts : ({ opFields 0x12#8 with rd := 7#3, rs1 := 7#3, imm := 0xFFFFFFFF#32 } : Fields).wellFormed = true := by
  decide

/-! ## Decoding: every constructor from a word written out from IMM32 ++ OP ++ RD ++ RS1 ++ RS2 ++ RES -/

theorem test_decode_nop : decode (0x00000000#32 ++ 0x00#8 ++ 0b000#3 ++ 0b000#3 ++ 0b000#3 ++ 0#15) = .instr .nop := by decide
theorem test_decode_load : decode (0x00000000#32 ++ 0x01#8 ++ 0b110#3 ++ 0b000#3 ++ 0b000#3 ++ 0#15) = .instr (.load 6) := by
  decide
theorem test_decode_read : decode (0x00000000#32 ++ 0x02#8 ++ 0b000#3 ++ 0b011#3 ++ 0b000#3 ++ 0#15) = .instr (.read 3) := by
  decide
theorem test_decode_rdstat : decode (0x00000000#32 ++ 0x03#8 ++ 0b000#3 ++ 0b000#3 ++ 0b000#3 ++ 0#15) = .instr .rdstat := by
  decide
theorem test_decode_xor : decode (0x00000000#32 ++ 0x10#8 ++ 0b011#3 ++ 0b001#3 ++ 0b010#3 ++ 0#15) = .instr (.xor 3 1 2) := by
  decide
theorem test_decode_add : decode (0x00000000#32 ++ 0x11#8 ++ 0b011#3 ++ 0b001#3 ++ 0b010#3 ++ 0#15) = .instr (.add 3 1 2) := by
  decide
theorem test_decode_adds : decode (0xEEDDCCBB#32 ++ 0x12#8 ++ 0b010#3 ++ 0b001#3 ++ 0b000#3 ++ 0#15) =
    .instr (.adds 2 1 0xEEDDCCBB#32) := by decide
theorem test_decode_rotl : decode (0x00000057#32 ++ 0x13#8 ++ 0b010#3 ++ 0b001#3 ++ 0b000#3 ++ 0#15) =
    .instr (.rotl 2 1 87#32) := by decide
theorem test_decode_setc : decode (0x00000000#32 ++ 0x20#8 ++ 0b000#3 ++ 0b010#3 ++ 0b000#3 ++ 0#15) = .instr (.setc 2) := by
  decide
theorem test_decode_scram : decode (0x00000000#32 ++ 0x21#8 ++ 0b100#3 ++ 0b000#3 ++ 0b001#3 ++ 0#15) =
    .instr (.scram 4 0 1) := by decide
theorem test_decode_setkey : decode (0x00000000#32 ++ 0x30#8 ++ 0b000#3 ++ 0b101#3 ++ 0b000#3 ++ 0#15) = .instr (.setkey 5) := by
  decide
theorem test_decode_keygen : decode (0x00000000#32 ++ 0x31#8 ++ 0b000#3 ++ 0b110#3 ++ 0b001#3 ++ 0#15) =
    .instr (.keygen 6 1) := by decide
theorem test_decode_setctr : decode (0x00000000#32 ++ 0x32#8 ++ 0b000#3 ++ 0b110#3 ++ 0b000#3 ++ 0#15) = .instr (.setctr 6) := by
  decide
theorem test_decode_getctr : decode (0x00000000#32 ++ 0x33#8 ++ 0b111#3 ++ 0b000#3 ++ 0b000#3 ++ 0#15) = .instr (.getctr 7) := by
  decide
theorem test_decode_ctrx : decode (0x00000000#32 ++ 0x34#8 ++ 0b011#3 ++ 0b010#3 ++ 0b000#3 ++ 0#15) = .instr (.ctrx 3 2) := by
  decide

/-- The words of L2-XOR to L2-TRANSFER, as the vectors write them. -/
theorem test_decode_vector_words :
    [0x0000000010248000#64, 0x0000000011248000#64, 0x0000000112440000#64, 0x0000005713440000#64, 0x00000000200C0000#64,
      0x0000000034680000#64, 0x0000000001E00000#64, 0x00000000021C0000#64].map decode =
    ([.xor 1 1 1, .add 1 1 1, .adds 2 1 1#32, .rotl 2 1 87#32, .setc 3, .ctrx 3 2, .load 7, .read 7] : List Instr).map .instr := by
  decide

/-- Rows E1 to E9: each is illegal. -/
theorem test_decode_illegal_words :
    [0x0000000004000000#64, 0x00000000FF000000#64, 0x0000000000000001#64, 0x0000000000200000#64, 0x0000000110600000#64,
      0x0000000001040000#64, 0x0000000013608000#64, 0x0000000012204000#64, 0x0000000002240000#64].all
      (fun w => match decode w with | .illegal _ => true | .instr _ => false) = true := by
  decide

/-- The opcode table's numbering: bit 0 is the least significant bit of the word (30_encoding R80). -/
theorem test_table_word : decodeTableWord 64 0x0000005713440000 = some (.rotl 2 1 87#32) := by decide
theorem test_table_word_illegal : decodeTableWord 64 0x0000000004000000 = none := by decide

/-! ## Small states and what to look at afterwards -/

/-- The reset state with some registers loaded. -/
def withRegs (rs : List (RegIdx × Word)) : State := rs.foldl (fun s p => s.setReg p.1 p.2) State.reset

/-- keyX, keyY and c of L1-4. -/
def keyX : Word := 0x000102030405060708090A0B0C0D0E0F#128
def keyY : Word := 0x00112233445566778899AABBCCDDEEFF#128
def constC : Word := 0x1FF9E9AAC5FE0408024591DC5D52768A#128

/-- A state in which everything is loaded. -/
def full : State := (((withRegs [(0, keyX), (1, keyY), (2, 5#128)]).setConst constC).setKey keyX).setCtr 7#128

/-- Register i afterwards, if it is valid. -/
def regAfter (i : RegIdx) : Result → Option Word
  | .next t => if t.valid i then some (t.reg i) else none
  | _ => none

/-- RSP_STATUS and DOUT. -/
def response : Result → Option (Code × Word)
  | .next t => t.rsp.map fun a => (a.status, a.dout)
  | _ => none

/-- STAT afterwards. -/
def statAfter : Result → Option (BitVec 32)
  | .next t => some t.stat
  | _ => none

/-- A word performed in a state. -/
def perform (w : CmdWord) (s : State) : Result := runCommand (s.accept ⟨w, 0#128⟩)

/-! ## One instruction on one state -/

/-- Row X1. -/
theorem test_xor : regAfter 3 (exec (.xor 3 1 2) (withRegs [(1, keyX), (2, keyY)])) =
    some 0x00102030405060708090A0B0C0D0E0F0#128 := by decide
/-- Row X6: R2 is unwritten, so UNINIT, and R3 stays unwritten. -/
theorem test_xor_uninit : response (exec (.xor 3 1 2) (withRegs [(1, keyX)])) = some (2#4, 0#128) := by decide
/-- Row A2: the sum wraps. -/
theorem test_add_wraps : regAfter 3 (exec (.add 3 1 2)
    (withRegs [(1, 0xFFFFFFFFFFFFFFFFFFFFFFFFFFFFFFFF#128), (2, 1#128)])) = some 0#128 := by decide
/-- Row A9: both sources are the destination. -/
theorem test_add_same : regAfter 1 (exec (.add 1 1 1) (withRegs [(1, 0x80000000000000000000000000000001#128)])) = some 2#128 := by
  decide
/-- Row S2: the carry leaves the low 32 bits. -/
theorem test_adds_carry : regAfter 2 (exec (.adds 2 1 1#32) (withRegs [(1, 0xFFFFFFFF#128)])) = some 0x100000000#128 := by decide
/-- Row S8: the largest amount is unsigned, and the sum wraps. -/
theorem test_adds_unsigned : regAfter 2 (exec (.adds 2 1 0xFFFFFFFF#32)
    (withRegs [(1, 0xFFFFFFFFFFFFFFFFFFFFFFFFFFFFFFFE#128)])) = some 0x000000000000000000000000FFFFFFFD#128 := by decide
/-- Row T29, the source's own vector. -/
theorem test_rotl : regAfter 2 (exec (.rotl 2 1 4#32) (withRegs [(1, 0x100102030405060708090A0B0C0D0E0F#128)])) =
    some 0x00102030405060708090A0B0C0D0E0F1#128 := by decide
/-- Row T14: the largest amount is 127 modulo 128. -/
theorem test_rotl_modulo : regAfter 2 (exec (.rotl 2 1 0xFFFFFFFF#32) (withRegs [(1, keyX)])) =
    some 0x80008101820283038404850586068707#128 := by decide
/-- SETC loads C and sets CV (41_scrambler R141, example): STAT bits 8 and 2. -/
theorem test_setc : statAfter (exec (.setc 2) (withRegs [(2, constC)])) = some 0x00000104#32 := by decide
/-- Row K9: C is locked. -/
theorem test_setc_locked : statAfter (exec (.setc 3) ((withRegs [(2, constC), (3, 0#128)]).setConst constC)) =
    some 0x0014010C#32 := by decide
/-- Row K1, the source's own vector. -/
theorem test_scram : regAfter 4 (exec (.scram 4 0 1) ((withRegs [(0, keyX), (1, keyY)]).setConst constC)) =
    some 0x3A2D1E26A6900789F50D1FC139D5818A#128 := by decide
/-- Row K8: no constant is loaded. -/
theorem test_scram_no_constant : statAfter (exec (.scram 4 0 1) (withRegs [(0, keyX), (1, keyY)])) = some 0x00130003#32 := by
  decide
/-- SETKEY loads KEY and sets KV (42_ctr R162). -/
theorem test_setkey : statAfter (exec (.setkey 5) (withRegs [(5, keyX)])) = some 0x00000220#32 := by decide
/-- Row K11. -/
theorem test_keygen : (match exec (.keygen 0 1) ((withRegs [(0, keyX), (1, keyY)]).setConst constC) with
    | .next t => some (t.key, t.kv)
    | _ => none) = some (0x3A2D1E26A6900789F50D1FC139D5818A#128, true) := by decide
/-- Row Q13: no constant is loaded. -/
theorem test_keygen_no_constant : statAfter (exec (.keygen 0 1) (withRegs [(0, keyX), (1, keyY)])) = some 0x00130003#32 := by
  decide
/-- SETCTR loads CTR and sets TV (42_ctr R166). -/
theorem test_setctr : statAfter (exec (.setctr 6) (withRegs [(6, keyX)])) = some 0x00000440#32 := by decide
/-- Row Q11. -/
theorem test_getctr : regAfter 7 (exec (.getctr 7) ((withRegs [(6, 0#128)]).setCtr 0xF0F1F2F3F4F5F6F7F8F9FAFBFCFDFEFF#128)) =
    some 0xF0F1F2F3F4F5F6F7F8F9FAFBFCFDFEFF#128 := by decide
/-- Row Q12. -/
theorem test_getctr_unset : statAfter (exec (.getctr 7) State.reset) = some 0x00160000#32 := by decide
/-- Row Q1, with the test cipher of the vectors: the counter wraps. -/
theorem test_ctrx_stub : (match ctrxWith (fun k b => .block (k ^^^ b)) 2 2
      (((withRegs [(2, 0#128)]).setKey keyX).setCtr 0xFFFFFFFFFFFFFFFFFFFFFFFFFFFFFFFF#128) with
    | .next t => some (t.reg 2, t.ctr)
    | _ => none) = some (0xFFFEFDFCFBFAF9F8F7F6F5F4F3F2F1F0#128, 0#128) := by decide
/-- Row Q6: the cipher fails, and neither R2 nor CTR changes. -/
theorem test_ctrx_fails : (match ctrxWith (fun _ _ => .failure) 2 2
      (((withRegs [(2, 0#128), (5, keyX), (6, 0xFFFFFFFFFFFFFFFFFFFFFFFFFFFFFFFF#128)]).setKey keyX).setCtr
        0xFFFFFFFFFFFFFFFFFFFFFFFFFFFFFFFF#128) with
    | .next t => some (t.reg 2, t.ctr, t.stat)
    | _ => none) = some (0#128, 0xFFFFFFFFFFFFFFFFFFFFFFFFFFFFFFFF#128, 0x00170664#32) := by decide
/-- Rows Q7 to Q10, with the model's own cipher: it is not asked. -/
theorem test_ctrx_checks :
    statAfter (exec (.ctrx 2 2) ((withRegs [(2, 0#128), (6, keyX)]).setCtr keyX)) = some 0x00150444#32 ∧
    statAfter (exec (.ctrx 2 2) ((withRegs [(2, 0#128), (5, keyX)]).setKey keyX)) = some 0x00160224#32 ∧
    statAfter (exec (.ctrx 2 2) (withRegs [(2, 0#128)])) = some 0x00150004#32 ∧
    statAfter (exec (.ctrx 2 2) State.reset) = some 0x00120000#32 := by decide
/-- Row D1. -/
theorem test_load : regAfter 7 (runCommand (State.reset.accept ⟨0x0000000001E00000#64, keyX⟩)) = some keyX := by decide
/-- Row D2. -/
theorem test_read : response (exec (.read 7) (withRegs [(7, keyX)])) = some (0#4, keyX) := by decide
/-- Row D3. -/
theorem test_read_uninit : statAfter (exec (.read 6) (withRegs [(7, keyX)])) = some 0x00120080#32 := by decide
/-- Row D4: RDSTAT returns STAT as it stood and keeps LASTERR. -/
theorem test_rdstat : response (exec .rdstat ((withRegs [(7, keyX)]).fail .uninit)) = some (0#4, 0x00120080#128) := by decide
/-- Row D5: NOP clears LASTERR and keeps ERRSEEN. -/
theorem test_nop : statAfter (exec .nop ((withRegs [(7, keyX)]).fail .uninit)) = some 0x00100080#32 := by decide
/-- Rows E1 and E9: an illegal word is ILLEGAL even where a source is unwritten. -/
theorem test_illegal_words : statAfter (perform 0x0000000004000000#64 (withRegs [(0, keyX)])) = some 0x00110001#32 ∧
    statAfter (perform 0x0000000002240000#64 (withRegs [(0, keyX)])) = some 0x00110001#32 := by decide
/-- Rows E10 to E12. -/
theorem test_check_order : statAfter (perform 0x0000000002040000#64 (withRegs [(0, keyX)])) = some 0x00120001#32 ∧
    statAfter (perform 0x0000000010008000#64 (withRegs [(0, keyX)])) = some 0x00120001#32 ∧
    statAfter (perform 0x0000000010200000#64 (withRegs [(0, keyX)])) = some 0x00000003#32 := by decide

/-! ## The step, the signal level and the assembler -/

/-- The first instruction after reset, placed as the host places it. -/
theorem test_step_from_reset : (match step (State.reset.withFetchWord 64 0x0000000001E00000) with
    | .next t => some (t.valid 7, t.n, t.rsp)
    | _ => none) = some (true, 1, some ⟨0#4, 0#128⟩) := by decide
/-- Row Z1, at the signal level: a reset clears STAT whatever the block was doing. -/
theorem test_reset_edge : statAfter (clockEdge { quietPins with rst := true } (full.setPhase .awaiting)) = some 0#32 := by decide
/-- A late answer while a later request is on offer and not accepted changes nothing, the request staying (70_reset R242). -/
theorem test_late_answer_ignored : (match clockEdge (answerPins .failure) (full.setPhase .requesting) with
    | .next t => some (t == full.setPhase .requesting)
    | _ => none) = some true := by decide
/-- While RST = 1 nothing is ready or valid; after it the block takes commands (70_reset R240). -/
theorem test_outputs : (full.outputs true).cmdReady = false ∧ (full.outputs false).cmdReady = true := by decide
/-- `LOAD r2 <- 0x1FF9...` of program P4, step 5. -/
theorem test_assemble_load : assembleLine "LOAD r2 <- 0x1FF9E9AAC5FE0408024591DC5D52768A ; c".toList =
    some [⟨0x0000000001400000#64, some constC⟩] := by decide
/-- `ADDS r7, r6, 1` of program P3, step 6, and `SEEK` as 30_encoding R88 expands it. -/
theorem test_assemble_imm : assembleLine "adds r7, r6, 1".toList = some [⟨0x0000000112F80000#64, none⟩] ∧
    assembleLine "SEEK r7, r6, 0x1".toList = some [⟨0x0000000112F80000#64, none⟩, ⟨0x00000000321C0000#64, none⟩] := by decide
/-- An immediate above 4294967295, a register r8 and a blank inside a register are no syntax (30_encoding R87, log 15). -/
theorem test_assemble_rejects : assembleLine "ADDS r7, r6, 4294967296".toList = none ∧ assembleLine "READ r8".toList = none ∧
    assembleLine "LOAD r 2".toList = none ∧ assembleLine "READ r 2".toList = none := by
  decide

/-! ## Witnesses: for every statement with hypotheses, concrete inputs that meet them, clause by clause -/

/-- A host with one command. -/
def hosting (m : HostMove) (s : State) : State := { s with host := [m] }

theorem witness_EncodeInvertsDecode : decode 0x0000000034480000#64 = .instr (.ctrx 2 2) := by decide

/-- The first and the last row, a word each of them matches, and one row twice. -/
theorem witness_DecodeFollowsMatchAndMask :
    matchMask[0]? = some (0x0000000000000000#64, 0xFFFFFFFFFFFFFFFF#64) ∧
    matchMask[14]? = some (0x0000000034000000#64, 0xFFFFFFFFFF03FFFF#64) ∧
    (0x0000000034FC0000#64 &&& 0xFFFFFFFFFF03FFFF#64 : CmdWord) = 0x0000000034000000#64 ∧
    (0x0000000034FC0001#64 &&& 0xFFFFFFFFFF03FFFF#64 : CmdWord) ≠ 0x0000000034000000#64 := by decide

theorem witness_IllegalWordsAreThoseOfR85 : decode 0x0000000004000000#64 = .illegal .unlistedOp ∧
    decode 0x0000000000004000#64 = .illegal .reservedNonzero ∧
    decode 0x0000000000200000#64 = .illegal .unusedFieldNonzero := by decide

theorem witness_WorkedEncodingsOfR89 :
    ((.getctr 7, 0x0000000033E00000#64) : Instr × CmdWord) ∈ [((.getctr 7, 0x0000000033E00000#64) : Instr × CmdWord)] := by decide

/-- Also where the destination is the source, and at the amounts 0 and 4294967295. -/
theorem witness_PseudoInstructionsOfR88 : parseImm "4294967295".toList = some 0xFFFFFFFF#32 ∧
    parseImm "0".toList = some 0#32 ∧ (withRegs [(7, keyX)]).valid 7 = true ∧
    regAfter 7 (execAll (expandPseudo (.mov 7 7)) (withRegs [(7, keyX)])) = some keyX ∧
    regAfter 0 (execAll (expandPseudo (.rotr 0 7 0#32)) (withRegs [(7, keyX)])) = some keyX ∧
    regAfter 0 (execAll (expandPseudo (.rotr 0 7 0xFFFFFFFF#32)) (withRegs [(7, keyX)])) =
      some 0x00020406080A0C0E10121416181A1C1E#128 := by decide

theorem witness_AssemblyOfR87_line : (['L', 'o'] ≠ ([] : List Char) ∧
      ∀ ch ∈ ['L', 'o'], isBlank ch = false ∧ ch ≠ ';') ∧
    OperandText ['r', '7', ' ', '<', '-', ' ', '0'] ∧ OperandText (regText 0) ∧ [';', 'c'].head? = some ';' := by
  refine ⟨⟨by decide, by simp [isBlank]⟩, ⟨by decide, by decide, by decide, by decide⟩, ⟨by decide, by decide, by decide, by decide⟩, rfl⟩

/-- The largest immediate and the first number above it, a decimal number with a leading zero, and a digit after digits. -/
theorem witness_AssemblyOfR87_number : parseNumber "4294967295".toList = some 4294967295 ∧
    parseNumber "4294967296".toList = some 4294967296 ∧ "09".toList.take 2 ≠ ['0', 'x'] ∧
    digitsValue 16 "F".toList = some 15 ∧ digitValue 16 'f' = some 15 := by decide

theorem witness_AssemblyOfR87_payload : (List.replicate 32 'F').length = 32 ∧
    digitsValue 16 (List.replicate 32 'F') = some 0xFFFFFFFFFFFFFFFFFFFFFFFFFFFFFFFF := by decide

theorem witness_StepRunsDecodedInstruction : ∃ (s : State) (x : Transaction),
    s.host[s.n]? = some (.command x) ∧ s.phase = .idle ∧ s.keepsOffer (some x) = true ∧
    decode x.cmd = .instr (.ctrx 2 2) :=
  ⟨hosting (.command ⟨0x0000000034480000#64, 0#128⟩) full, _, rfl, rfl, rfl, by decide⟩

theorem witness_StepWaits : State.reset.host[State.reset.n]? = none ∧ ∃ x : Transaction,
    (hosting (.command x) (full.setPhase .awaiting)).host[(hosting (.command x) (full.setPhase .awaiting)).n]? =
      some (.command x) ∧ (hosting (.command x) (full.setPhase .awaiting)).phase ≠ .idle :=
  ⟨rfl, ⟨0#64, 0#128⟩, rfl, by decide⟩

theorem witness_StepOfIllegalWord : ∃ (s : State) (x : Transaction),
    s.host[s.n]? = some (.command x) ∧ s.phase = .idle ∧ s.keepsOffer (some x) = true ∧
    decode x.cmd = .illegal .unlistedOp :=
  ⟨hosting (.command ⟨0x00000000FF000000#64, 0#128⟩) full, _, rfl, rfl, rfl, by decide⟩

/-- The reset pins of the three statements about reset. -/
theorem witness_ResetStateOfR34 : ({ quietPins with rst := true } : PinsIn).rst = true := rfl

theorem witness_ResetAbandonsCommand : ({ offerPins ⟨0#64, 0#128⟩ with rst := true } : PinsIn).rst = true ∧
    ((full.setPhase .requesting).phase = .requesting → quietPins.eReqReady = false) ∧
    (full.setPhase .requesting).phase ≠ .awaiting := by decide

theorem witness_OutputsUnderReset : ({ quietPins with rst := true } : PinsIn).rst = true ∧
    (offerPins ⟨0#64, 0#128⟩).rst = false ∧ (offerPins ⟨0#64, 0#128⟩).cmdValid = true := by decide

/-- The instruction words of the per-instruction statements: a legal one and an illegal one for each OP. -/
theorem witness_WordsWithOp :
    [0x00#8, 0x01#8, 0x02#8, 0x03#8, 0x10#8, 0x11#8, 0x12#8, 0x13#8, 0x20#8, 0x21#8, 0x30#8, 0x31#8, 0x32#8, 0x33#8, 0x34#8].all
      (fun op => (fields (opFields op).pack).op == op && (fields (opFields op).pack).wellFormed &&
        (fields ({ opFields op with res := 1#15 } : Fields).pack).op == op &&
        !(fields ({ opFields op with res := 1#15 } : Fields).pack).wellFormed) = true := by decide

theorem witness_LoadAsR190 : ∀ rd, (.nop : Instr) ≠ .load rd := by decide
theorem witness_ReadAsR191 : State.reset.valid 7 = false ∧ full.valid 0 = true := by decide
theorem witness_XorAsR110 : full.valid 3 = false ∧ full.valid 0 = true ∧ full.valid 1 = true := by decide
theorem witness_AddAsR113 : full.valid 7 = false ∧ full.valid 1 = true ∧ full.valid 2 = true := by decide
theorem witness_AddsAsR116 : full.valid 4 = false ∧ full.valid 2 = true := by decide
theorem witness_RotlAsR121 : full.valid 5 = false ∧ full.valid 1 = true := by decide

/-- The last clause too: a step that is no reset, with C loaded. -/
theorem witness_SetcAsR141 : full.valid 6 = false ∧ (full.valid 0 = true ∧ full.cv = true) ∧
    ((withRegs [(2, constC)]).valid 2 = true ∧ (withRegs [(2, constC)]).cv = false) ∧
    ∃ t, full.cv = true ∧ (hosting (.command ⟨0x0000000020000000#64, 0#128⟩) full).resetNext = false ∧
      step (hosting (.command ⟨0x0000000020000000#64, 0#128⟩) full) = .next t :=
  ⟨by decide, by decide, by decide, _, rfl, rfl, rfl⟩

theorem witness_ScramAsR142 : full.valid 3 = false ∧ (full.valid 0 = true ∧ full.valid 1 = true ∧ full.cv = true) ∧
    (withRegs [(0, keyX), (1, keyY)]).valid 0 = true ∧ (withRegs [(0, keyX), (1, keyY)]).valid 1 = true ∧
    (withRegs [(0, keyX), (1, keyY)]).cv = false := by decide

theorem witness_SetkeyAsR162 : State.reset.valid 0 = false ∧ full.valid 0 = true := by decide

theorem witness_KeygenAsR163 : full.valid 3 = false ∧ (withRegs [(0, keyX), (1, keyY)]).cv = false ∧
    ∃ t, full.valid 0 = true ∧ full.valid 1 = true ∧ full.cv = true ∧ exec (.keygen 0 1) full = .next t :=
  ⟨by decide, by decide, _, by decide, by decide, rfl, rfl⟩

theorem witness_SetctrAsR166 : State.reset.valid 6 = false ∧ full.valid 2 = true := by decide

theorem witness_GetctrAsR167 : State.reset.tv = false ∧ full.tv = true ∧ full.valid 2 = true ∧ full.kv = true := by decide

/-- Each way CTRX can go, the last clause with a cipher that answers and one that fails. -/
theorem witness_CtrxAsR168 : full.valid 3 = false ∧
    ((withRegs [(2, 0#128)]).valid 2 = true ∧ (withRegs [(2, 0#128)]).kv = false) ∧
    (((withRegs [(2, 0#128)]).setKey 0#128).valid 2 = true ∧ ((withRegs [(2, 0#128)]).setKey 0#128).kv = true ∧
      ((withRegs [(2, 0#128)]).setKey 0#128).tv = false) ∧
    (full.valid 2 = true ∧ full.kv = true ∧ full.tv = true) ∧
    (fun _ _ => Config.CipherAnswer.block 0#128 : Word → Word → Config.CipherAnswer) full.key full.ctr = .block 0#128 := by
  decide

/-- Two ciphers that agree on the one request and differ elsewhere. -/
theorem witness_CtrxAsR168_request :
    (fun _ _ => Config.CipherAnswer.failure : Word → Word → Config.CipherAnswer) full.key full.ctr =
      (fun _ b => if b = 7#128 then .failure else .block b : Word → Word → Config.CipherAnswer) full.key full.ctr := by decide

/-- A list of two commands and an idle block. -/
theorem witness_CommandListOfR60 : ∃ s : State, s.phase = .idle ∧ s.offer = none ∧ s.n = 0 ∧
    s.host = ([⟨0x0000000001000000#64, keyX⟩, ⟨0x0000000002000000#64, 0#128⟩] : List Transaction).map .command ∧
    2 ≤ ([⟨0x0000000001000000#64, keyX⟩, ⟨0x0000000002000000#64, 0#128⟩] : List Transaction).length :=
  ⟨{ State.reset with host := [.command ⟨0x0000000001000000#64, keyX⟩, .command ⟨0x0000000002000000#64, 0#128⟩] },
    rfl, rfl, rfl, rfl, by decide⟩

theorem witness_FailedCommandOfR213 :
    checkWord Config.cipher (State.reset.accept ⟨0x0000000002000000#64, 0#128⟩).cmd
      (State.reset.accept ⟨0x0000000002000000#64, 0#128⟩) ≠ .ok := by decide

theorem witness_SuccessfulCommandAnswersOk :
    decode (full.accept ⟨0x0000000002000000#64, 0#128⟩).cmd = .instr (.read 0) ∧
    check Config.cipher (.read 0) (full.accept ⟨0x0000000002000000#64, 0#128⟩) = .ok := by decide

theorem witness_LastErrOfR30 :
    (∃ t, runCommand (full.accept ⟨0x0000000003000000#64, 0#128⟩) = .next t ∧
      decode (full.accept ⟨0x0000000003000000#64, 0#128⟩).cmd = .instr .rdstat) ∧
    (∃ t, runCommand (full.accept ⟨0x0000000002000000#64, 0#128⟩) = .next t ∧
      decode (full.accept ⟨0x0000000002000000#64, 0#128⟩).cmd ≠ .instr .rdstat) :=
  ⟨⟨_, rfl, by decide⟩, ⟨_, rfl, by decide⟩⟩

theorem witness_ErrSeenOfR31 :
    (∃ t a, runCommand (State.reset.accept ⟨0x0000000002000000#64, 0#128⟩) = .next t ∧ t.rsp = some a ∧ a.status ≠ 0#4) ∧
    (∃ t a, runCommand State.reset = .next t ∧ t.rsp = some a ∧ a.status = 0#4) ∧
    (∃ t, (full.fail .uninit).errSeen = true ∧ (full.fail .uninit).resetNext = false ∧ step (full.fail .uninit) = .next t) :=
  ⟨⟨_, _, rfl, rfl, by decide⟩, ⟨_, _, rfl, rfl, by decide⟩, ⟨_, rfl, rfl, rfl⟩⟩

theorem witness_ValidBitsOfR23 :
    (∃ t, destOf (.load 7) = some 7 ∧ check Config.cipher (.load 7) State.reset = .ok ∧ exec (.load 7) State.reset = .next t) ∧
    (∃ t, full.valid 2 = true ∧ full.resetNext = false ∧ step full = .next t) ∧
    ((7 : RegIdx) ∈ sourcesOf (.xor 0 0 7) ∧ full.valid 7 = false) :=
  ⟨⟨_, rfl, rfl, rfl⟩, ⟨_, by decide, rfl, rfl⟩, by decide, by decide⟩

theorem witness_OnlyResetUnloads : ∃ t, full.resetNext = false ∧ step full = .next t ∧ full.cv = true ∧ full.kv = true ∧
    full.tv = true := ⟨_, rfl, rfl, rfl, rfl, rfl⟩

/-- A change of a register, of C, of KEY and of CTR; CTRX changes CTR where the cipher answers a block. -/
theorem witness_WritersOfEachRegister :
    (∃ t, exec (.load 0) full = .next t ∧ t.reg 0 ≠ full.reg 0) ∧
    (∃ t, exec (.setc 2) (withRegs [(2, constC)]) = .next t ∧ t.cv ≠ (withRegs [(2, constC)]).cv) ∧
    (∃ t, exec (.setkey 1) full = .next t ∧ t.key ≠ full.key) ∧
    (∃ t, exec (.setctr 1) full = .next t ∧ t.ctr ≠ full.ctr) :=
  ⟨⟨_, rfl, by decide⟩, ⟨_, rfl, by decide⟩, ⟨_, rfl, by decide⟩, ⟨_, rfl, by decide⟩⟩

theorem witness_RepeatedCommand :
    (∃ t, (∀ rd, destOf (.adds 3 0 1#32) = some rd → rd ∉ sourcesOf (.adds 3 0 1#32)) ∧ isCtrx (.adds 3 0 1#32) = false ∧
      isSetc (.adds 3 0 1#32) = false ∧ check Config.cipher (.adds 3 0 1#32) full = .ok ∧
      exec (.adds 3 0 1#32) full = .next t) ∧
    (∃ t, check Config.cipher (.setc 2) (withRegs [(2, constC)]) = .ok ∧ exec (.setc 2) (withRegs [(2, constC)]) = .next t) :=
  ⟨⟨_, by decide, rfl, rfl, by decide, rfl⟩, ⟨_, by decide, rfl⟩⟩

/-- The reset state meets the invariant, and so does a state with a response of the largest code. -/
theorem witness_Inv : State.reset.Inv ∧ (State.reset.fail .primFail).Inv ∧
    ((full.accept ⟨0x0000000034480000#64, 0#128⟩).setPhase .requesting).Inv := by
  refine ⟨?_, ?_, ?_⟩ <;> constructor <;> decide

theorem witness_StatOfR32 : (State.reset.fail .primFail).Inv := witness_Inv.2.1

theorem witness_ByteSequenceOfR7 : (bytes keyX).length = 16 ∧ ofBytes (bytes keyX) = keyX ∧ byte keyX 15 = 0x0F#8 ∧
    byte keyX 0 = 0x00#8 := by decide

theorem witness_XorBytewiseOfR111 : full.valid 0 = true ∧ full.valid 1 = true := by decide

theorem witness_ScramIsFourInstructions : ∃ t, (3 : RegIdx) ≠ 0 ∧ (3 : RegIdx) ≠ 1 ∧ (3 : RegIdx) ≠ 2 ∧
    ((withRegs [(0, keyX), (1, keyY), (2, constC)]).setConst constC).valid 0 = true ∧
    ((withRegs [(0, keyX), (1, keyY), (2, constC)]).setConst constC).valid 1 = true ∧
    ((withRegs [(0, keyX), (1, keyY), (2, constC)]).setConst constC).valid 2 = true ∧
    ((withRegs [(0, keyX), (1, keyY), (2, constC)]).setConst constC).reg 2 =
      ((withRegs [(0, keyX), (1, keyY), (2, constC)]).setConst constC).c ∧
    exec (.scram 4 0 1) ((withRegs [(0, keyX), (1, keyY), (2, constC)]).setConst constC) = .next t :=
  ⟨_, by decide, by decide, by decide, by decide, by decide, by decide, by decide, rfl⟩

/-- Loaded state for the first clause; one block and its keystream for the second. -/
theorem witness_CtrModeOfR161 : full.kv = true ∧ full.tv = true ∧ [5#128].length = [7#128].length ∧
    ∀ (j : Nat) (k : Word), [5#128][j]? = some k →
      (fun _ _ => Config.CipherAnswer.block 5#128 : Word → Word → Config.CipherAnswer) 0#128 (0#128 + BitVec.ofNat 128 j) =
        .block k := by
  refine ⟨rfl, rfl, rfl, fun j k h => ?_⟩
  cases j with
  | zero => simp_all
  | succ j => simp at h

/-- A whole command and an edge, each from a state that meets the invariant. -/
theorem witness_StepKeepsInvariant :
    (∃ t, (hosting (.command ⟨0#64, 0#128⟩) State.reset).Inv ∧ step (hosting (.command ⟨0#64, 0#128⟩) State.reset) = .next t) ∧
    (∃ t, (hosting (.edge (offerPins ⟨0#64, 0#128⟩)) State.reset).Inv ∧
      step (hosting (.edge (offerPins ⟨0#64, 0#128⟩)) State.reset) = .next t) :=
  ⟨⟨_, by constructor <;> decide, rfl⟩, ⟨_, by constructor <;> decide, rfl⟩⟩

/-- Two states that differ in the contents of every unwritten register. -/
theorem witness_UnwrittenContentsUnobservable : State.reset.Inv ∧
    SameButUnwritten State.reset
      { State.reset with r := Vector.replicate 8 1#128, c := 1#128, key := 1#128, ctr := 1#128 } := by
  refine ⟨witness_Inv.1, ?_⟩
  constructor <;> first | rfl | decide

theorem witness_KeyCannotBeRead : isCtrx (.keygen 0 1) = false ∧
    (fun _ _ => Config.CipherAnswer.block 0#128 : Word → Word → Config.CipherAnswer) 1#128 full.ctr =
      (fun _ _ => Config.CipherAnswer.block 0#128 : Word → Word → Config.CipherAnswer) full.key full.ctr := ⟨rfl, rfl⟩

theorem witness_ConstantCannotBeRead : usesConst (.setc 0) = false := rfl

theorem witness_HandshakeIsTransaction : State.reset.phase = .idle ∧ State.reset.offer = none := ⟨rfl, rfl⟩

/-- A command taken; a wait and a response taken; a response and a request that wait. -/
theorem witness_HandshakeRulesOfR53 :
    (∃ t, (full.outputs false).cmdReady = true ∧ (offerPins ⟨0#64, 0#128⟩).cmdValid = true ∧
      clockEdge (offerPins ⟨0#64, 0#128⟩) full = .next t) ∧
    (∃ t, ((full.setPhase .responding).outputs false).cmdReady = false ∧
      clockEdge takePins (full.setPhase .responding) = .next t) ∧
    (∃ t a, (((full.fail .uninit).setPhase .responding).outputs false).rsp = some a ∧ quietPins.rspReady = false ∧
      clockEdge quietPins ((full.fail .uninit).setPhase .responding) = .next t) ∧
    (∃ t q, ((full.setPhase .requesting).outputs false).eReq = some q ∧ quietPins.eReqReady = false ∧
      clockEdge quietPins (full.setPhase .requesting) = .next t) :=
  ⟨⟨_, rfl, rfl, rfl⟩, ⟨_, rfl, rfl⟩, ⟨_, _, rfl, rfl, rfl⟩, ⟨_, _, rfl, rfl, rfl⟩⟩

theorem witness_CipherRequestsOfR54 :
    (∃ q, ((full.accept ⟨0x0000000034480000#64, 0#128⟩).setPhase .requesting).Inv ∧
      (((full.accept ⟨0x0000000034480000#64, 0#128⟩).setPhase .requesting).outputs false).eReq = some q) ∧
    (∃ t, ((full.setPhase .requesting).outputs false).eReq ≠ none ∧ acceptPins.eReqReady = true ∧
      clockEdge acceptPins (full.setPhase .requesting) = .next t) ∧
    (∃ t, (full.setPhase .awaiting).phase = .awaiting ∧ clockEdge quietPins (full.setPhase .awaiting) = .next t) ∧
    (∃ t, (full.setPhase (.working 0)).asksCipher = false ∧ clockEdge quietPins (full.setPhase (.working 0)) = .next t) ∧
    (((full.accept ⟨0x0000000034480000#64, 0#128⟩).setPhase (.working 0)).asksCipher = true ∧ quietPins.rst = false ∧
      ((full.accept ⟨0x0000000034480000#64, 0#128⟩).setPhase (.working 0)).keepsOffer quietPins.offered = true) :=
  ⟨⟨_, witness_Inv.2.2, rfl⟩, ⟨_, by decide, rfl, rfl⟩, ⟨_, rfl, rfl⟩, ⟨_, by decide, rfl⟩, by decide⟩

theorem witness_StuckWithoutAnswer :
    (∃ t, (full.setPhase .awaiting).phase = .awaiting ∧
      (∀ p ∈ [offerPins ⟨0#64, 0#128⟩], p.rst = false ∧ p.eRspValid = false) ∧
      clockEdges [offerPins ⟨0#64, 0#128⟩] (full.setPhase .awaiting) = .next t) ∧
    (full.setPhase .awaiting).offer = none :=
  ⟨⟨_, rfl, by decide, rfl⟩, rfl⟩

/-- A dropped offer, and a wrong answer, whatever the cipher's own is: after the edge that accepts the request, and at it. -/
theorem witness_BrokenDutiesRefused :
    ((full.setOffer (some ⟨0#64, 0#128⟩)).offer = some ⟨0#64, 0#128⟩ ∧ quietPins.offered ≠ some ⟨0#64, 0#128⟩) ∧
    (∃ p : PinsIn, p.rst = false ∧ (full.setPhase .awaiting).keepsOffer p.offered = true ∧
      (full.setPhase .requesting).keepsOffer p.offered = true ∧ p.eReqReady = true ∧ p.eRspValid = true ∧
      p.answer ≠ Config.cipher full.key full.ctr) := by
  refine ⟨by decide, ?_⟩
  cases h : Config.cipher full.key full.ctr with
  | block ks =>
    exact ⟨{ answerPins .failure with eReqReady := true }, rfl, rfl, rfl, rfl, rfl, by simp [answerPins, PinsIn.answer]⟩
  | failure =>
    exact ⟨{ answerPins (.block 0#128) with eReqReady := true }, rfl, rfl, rfl, rfl, rfl,
      by simp [answerPins, PinsIn.answer, quietPins]⟩

end Sys2Proof.Tests
end

/-! ## Support: how a command completes, and what one step can do to the block

60_exceptions R212 to R214 for a whole command word, and 10_state R21 with 70_reset R246 for a step without reset. -/

section
namespace Sys2Proof.Machine

/-! The status codes (60_exceptions R210). -/

@[simp] theorem Status.code_ok : Status.ok.code = 0#4 := rfl

/-- OK is the only status with code 0. -/
theorem Status.code_eq_zero {st : Status} : st.code = 0#4 ↔ st = .ok := by
  cases st <;> decide

/-! Every instruction has a next state: each check goes on or fails, and neither stops the block (60_exceptions R216). -/

theorem State.require_completes {s : State} {ok : Bool} {st : Status} {k : Result} (h : ∃ t, k = .next t) :
    ∃ t, s.require ok st k = .next t := by
  cases ok
  · exact ⟨s.fail st, rfl⟩
  · exact h

theorem State.applyKeystream_completes (s : State) (rd : RegIdx) (v : Word) (answer : Config.CipherAnswer) :
    ∃ t, s.applyKeystream rd v answer = .next t := by
  cases answer <;> exact ⟨_, rfl⟩

theorem exec_completes (i : Instr) (s : State) : ∃ t, exec i s = .next t := by
  cases i with
  | nop | load | rdstat => exact ⟨_, rfl⟩
  | read | adds | rotl | setkey | setctr | getctr => exact State.require_completes ⟨_, rfl⟩
  | xor | add | setc => exact State.require_completes (State.require_completes ⟨_, rfl⟩)
  | scram | keygen => exact State.require_completes (State.require_completes (State.require_completes ⟨_, rfl⟩))
  | ctrx rd a =>
    exact State.require_completes (State.require_completes (State.require_completes
      (State.applyKeystream_completes s rd (s.reg a) _)))

/-! The checks (60_exceptions R211, R212). -/

/-- An unwritten source is the first check, so nothing is reported before it. -/
theorem check_of_unwritten {E : Word → Word → Config.CipherAnswer} {i : Instr} {s : State} {a : RegIdx}
    (hmem : a ∈ sourcesOf i) (hv : s.valid a = false) : check E i s = .uninit := by
  have hany : (sourcesOf i).any (fun b => !s.valid b) = true := List.any_eq_true.2 ⟨a, hmem, by simp [hv]⟩
  simp [check, hany]

/-- A CTRX that passes every check has a keystream block. -/
theorem exists_block_of_check_ctrx {E : Word → Word → Config.CipherAnswer} {rd a : RegIdx} {s : State}
    (h : check E (.ctrx rd a) s = .ok) : ∃ ks, E s.key s.ctr = .block ks := by
  cases hE : E s.key s.ctr with
  | block ks => exact ⟨ks, rfl⟩
  | failure => simp [check, isCtrx, hE, ite_eq_iff] at h

/-- An instruction one of whose checks fails ends with that status. -/
theorem exec_of_check_ne_ok {i : Instr} {s : State} (h : check Config.cipher i s ≠ .ok) :
    exec i s = .next (s.fail (check Config.cipher i s)) := by
  obtain ⟨t, ht⟩ := exec_completes i s
  obtain ⟨st, -, hst, rfl⟩ | ⟨hok, -, -⟩ | ⟨hok, -, -⟩ := exec_cases ht
  · rw [ht, hst]
  · exact absurd hok h
  · exact absurd hok h

/-! The effect of an instruction whose checks pass. -/

@[simp] theorem perform_errSeen (E : Word → Word → Config.CipherAnswer) (i : Instr) (s : State) :
    (perform E i s).1.errSeen = s.errSeen := by
  cases i with
  | ctrx rd a => simp only [perform]; cases E s.key s.ctr <;> rfl
  | _ => rfl

/-- After a passed check the valid data registers are those of before and the destination (10_state R23). -/
theorem valid_perform {E : Word → Word → Config.CipherAnswer} {i : Instr} {s : State} (h : check E i s = .ok)
    (j : RegIdx) : (perform E i s).1.valid j = (decide (destOf i = some j) || s.valid j) := by
  cases i with
  | nop | read | rdstat | setc | setkey | keygen | setctr => rfl
  | load rd | xor rd | add rd | adds rd | rotl rd | scram rd | getctr rd =>
    simp [perform, destOf, State.valid_setReg, eq_comm]
  | ctrx rd a =>
    obtain ⟨ks, hks⟩ := exists_block_of_check_ctrx h
    have hvalid : (perform E (.ctrx rd a) s).1.valid j = (s.setReg rd (s.reg a ^^^ ks)).valid j := by
      simp only [perform, hks]; rfl
    simp [hvalid, destOf, State.valid_setReg, eq_comm]

/-- All that performing a command word can do: it fails and changes only LASTERR, ERRSEEN and the response, or it is a
RDSTAT, or another instruction that has its effect and answers OK (60_exceptions R213, R214). -/
theorem runCommand_cases {s t : State} (h : runCommand s = .next t) :
    (∃ st, st ≠ .ok ∧ checkWord Config.cipher s.cmd s = st ∧ t = s.fail st) ∨
    (decode s.cmd = .instr .rdstat ∧ t = s.respond .ok (s.stat.setWidth 128)) ∨
    (∃ i, decode s.cmd = .instr i ∧ i ≠ .rdstat ∧ check Config.cipher i s = .ok ∧
      t = (perform Config.cipher i s).1.succeed (perform Config.cipher i s).2) := by
  obtain ⟨i, hi, hx⟩ | ⟨why, hw, rfl⟩ := runCommand_next h
  · obtain ⟨st, hst, hc, rfl⟩ | ⟨-, rfl, rfl⟩ | ⟨hc, hne, rfl⟩ := exec_cases hx
    · exact .inl ⟨st, hst, by simp [checkWord, hi, hc], rfl⟩
    · exact .inr (.inl ⟨hi, rfl⟩)
    · exact .inr (.inr ⟨i, hi, hne, hc, rfl⟩)
  · exact .inl ⟨.illegal, by simp, by simp [checkWord, hw], rfl⟩

/-! A step, as the registers of the block see it: nothing happens to them, or one command is performed on them. -/

theorem SameBlock.errSeen {s t : State} (h : SameBlock s t) : s.errSeen = t.errSeen := by
  obtain ⟨-, -, -, -, -, -, -, -, -, he⟩ := h
  exact he

theorem SameBlock.valid {s t : State} (h : SameBlock s t) (j : RegIdx) : s.valid j = t.valid j := by
  obtain ⟨-, hrv, -⟩ := h
  exact State.valid_congr hrv j

theorem SameBlock.refl (s : State) : SameBlock s s := ⟨rfl, rfl, rfl, rfl, rfl, rfl, rfl, rfl, rfl, rfl⟩
theorem SameBlock.trans {s t u : State} (h : SameBlock s t) (h' : SameBlock t u) : SameBlock s u := by
  obtain ⟨hr, hrv, hc, hcv, hkey, hkv, hctr, htv, hlast, hseen⟩ := h
  simpa only [SameBlock, hr, hrv, hc, hcv, hkey, hkv, hctr, htv, hlast, hseen] using h'

theorem sameBlock_accept (s : State) (x : Transaction) : SameBlock s (s.accept x) := SameBlock.refl s
theorem sameBlock_setPhase (s : State) (p : Phase) : SameBlock s (s.setPhase p) := SameBlock.refl s
theorem sameBlock_setOffer (s : State) (o : Option Transaction) : SameBlock s (s.setOffer o) := SameBlock.refl s
theorem sameBlock_moveOn (s : State) : SameBlock s s.moveOn := SameBlock.refl s

/-- The block's registers of `t` are those of `s`, or those of `s` after one command. -/
inductive BlockMove (s t : State) : Prop where
  | keep (same : SameBlock s t)
  | command (u v : State) (before : SameBlock s u) (run : runCommand u = .next v) (after : SameBlock v t)

theorem BlockMove.congr {s s' t t' : State} (before : SameBlock s s') (h : BlockMove s' t') (after : SameBlock t' t) :
    BlockMove s t := by
  cases h with
  | keep same => exact .keep (before.trans (same.trans after))
  | command u v hu run hv => exact .command u v (before.trans hu) run (hv.trans after)

theorem BlockMove.of_finish {s t : State} (h : s.finish = .next t) : BlockMove s t := by
  obtain ⟨u, hrun, rfl⟩ := State.finish_next h
  exact .command s u (.refl s) hrun (sameBlock_setPhase u _)

theorem BlockMove.of_edgeByPhase {s t : State} {p : PinsIn} (h : s.edgeByPhase p = .next t) : BlockMove s t := by
  obtain ⟨-, -, rfl⟩ | ⟨left, -, rfl⟩ | ⟨-, -, rfl⟩ | ⟨-, -, hfin⟩ | ⟨-, -, -, rfl⟩ | ⟨-, -, -, hfin⟩ |
    ⟨-, -, rfl⟩ | ⟨-, rfl⟩ := State.edgeByPhase_next h
  · exact .keep (sameBlock_accept s ⟨p.cmd, p.din⟩)
  · exact .keep (sameBlock_setPhase s _)
  · exact .keep (sameBlock_setPhase s _)
  · exact .of_finish hfin
  · exact .keep (sameBlock_setPhase s _)
  · exact .of_finish hfin
  · exact .keep (sameBlock_setPhase s _)
  · exact .keep (.refl t)

/-- A step that is no reset performs at most one command on the block's registers (10_state R24, 70_reset R246). -/
theorem BlockMove.of_step {s t : State} (hr : s.resetNext = false) (h : step s = .next t) : BlockMove s t := by
  obtain ⟨-, rfl⟩ | ⟨x, -, hx⟩ | ⟨p, u, hp, he, rfl⟩ := step_next h
  · exact .keep (.refl t)
  · obtain ⟨-, -, v, hrun, rfl⟩ | ⟨-, rfl⟩ := commandMove_next hx
    · exact .command (s.accept x) v (sameBlock_accept s x) hrun (sameBlock_moveOn v)
    · exact .keep (.refl t)
  · obtain ⟨hrst, -⟩ | ⟨-, -, hphase⟩ := clockEdge_next he
    · simp [State.resetNext, hp, hrst] at hr
    · exact .congr (sameBlock_setOffer s p.offered) (.of_edgeByPhase hphase) (sameBlock_moveOn u)

/-- What no command and no change outside the block's registers undoes, no step but a reset undoes. -/
theorem step_preserves {P : State → Prop} (hblock : ∀ s t, SameBlock s t → P s → P t)
    (hcommand : ∀ s t, runCommand s = .next t → P s → P t) {s t : State} (hr : s.resetNext = false)
    (h : step s = .next t) (hP : P s) : P t := by
  cases BlockMove.of_step hr h with
  | keep same => exact hblock s t same hP
  | command u v before run after => exact hblock v t after (hcommand u v run (hblock s u before hP))

/-- An edge with RST = 1 is a reset, whatever else is on the pins (70_reset R240). -/
theorem clockEdge_reset {p : PinsIn} (h : p.rst = true) (s : State) : clockEdge p s = .next s.resetEdge := by
  simp [clockEdge, h]

end Sys2Proof.Machine
end

/-! ## The state: 10_state R23, R30, R31 and R34 -/

section
namespace Sys2Proof.Machine

/-! LASTERR and ERRSEEN (10_state R30, R31). -/

/-- RDSTAT leaves LASTERR as it stood. -/
theorem runCommand_rdstat_lastErr {s t : State} (hd : decode s.cmd = .instr .rdstat) (h : runCommand s = .next t) :
    t.lastErr = s.lastErr := by
  rw [runCommand_instr hd] at h
  cases h
  rfl

/-- ERRSEEN after a command is what it was, or 1 if the command's status is not 0. -/
theorem runCommand_errSeen {s t : State} {a : Response} (h : runCommand s = .next t) (ha : t.rsp = some a) :
    t.errSeen = (decide (a.status ≠ 0#4) || s.errSeen) := by
  obtain ⟨st, hst, -, rfl⟩ | ⟨-, rfl⟩ | ⟨i, -, -, -, rfl⟩ := runCommand_cases h
  · cases ha
    simp [Status.code_eq_zero, hst]
  · cases ha
    simp
  · cases ha
    simp

theorem runCommand_keeps_errSeen {s t : State} (h : runCommand s = .next t) (hs : s.errSeen = true) :
    t.errSeen = true := by
  obtain ⟨st, -, -, rfl⟩ | ⟨-, rfl⟩ | ⟨i, -, -, -, rfl⟩ := runCommand_cases h
  · rfl
  · exact hs
  · simpa using hs

/-- Settles O33: a command that is no RDSTAT ends in `fail` or `succeed`, which write one code to LASTERR and the
response. -/
theorem lastErrOfR30 : Obligations.LastErrOfR30 := by
  intro s t h
  refine ⟨fun hd => runCommand_rdstat_lastErr hd h, fun hd => ?_⟩
  obtain ⟨st, -, -, rfl⟩ | ⟨hr, -⟩ | ⟨i, -, -, -, rfl⟩ := runCommand_cases h
  · exact ⟨_, rfl, rfl⟩
  · exact absurd hr hd
  · exact ⟨_, rfl, rfl⟩

/-- Settles O34: a failing completion sets ERRSEEN and no effect of an instruction touches it, and a step without reset is at
most one command. -/
theorem errSeenOfR31 : Obligations.ErrSeenOfR31 := by
  refine ⟨fun s t a h ha => ?_, fun s t hs hr h => ?_, fun s p hp => ?_⟩
  · have herr := runCommand_errSeen h ha
    exact ⟨fun hne => by simp [herr, hne], fun heq => by simp [herr, heq]⟩
  · exact step_preserves (P := fun s => s.errSeen = true) (fun s t same hP => same.errSeen ▸ hP)
      (fun s t run hP => runCommand_keeps_errSeen run hP) hr h hs
  · exact ⟨s.resetEdge, clockEdge_reset hp s, rfl⟩

/-! The valid bits (10_state R23). -/

theorem exec_valid_dest {i : Instr} {s t : State} {rd : RegIdx} (hd : destOf i = some rd)
    (hc : check Config.cipher i s = .ok) (h : exec i s = .next t) : t.valid rd = true := by
  obtain ⟨st, hst, hcheck, -⟩ | ⟨-, rfl, -⟩ | ⟨-, -, rfl⟩ := exec_cases h
  · exact absurd (hcheck.symm.trans hc) hst
  · cases hd
  · simp [valid_perform hc, hd]

theorem runCommand_keeps_valid {s t : State} {j : RegIdx} (h : runCommand s = .next t) (hv : s.valid j = true) :
    t.valid j = true := by
  obtain ⟨st, -, -, rfl⟩ | ⟨-, rfl⟩ | ⟨i, -, -, hc, rfl⟩ := runCommand_cases h
  · exact hv
  · exact hv
  · simp [valid_perform hc, hv]

theorem fails_of_unwritten {i : Instr} {s : State} {a : RegIdx} (hmem : a ∈ sourcesOf i) (hv : s.valid a = false) :
    Fails i .uninit s := by
  have hcheck : check Config.cipher i s = .uninit := check_of_unwritten hmem hv
  have hexec := exec_of_check_ne_ok (i := i) (s := s) (by simp [hcheck])
  rw [hcheck] at hexec
  exact ⟨s.fail .uninit, hexec, endsWith_fail s .uninit⟩

/-- Settles O35: the valid bits after a command are those of before and its destination's, and a step without reset is at most
one command. -/
theorem validBitsOfR23 : Obligations.ValidBitsOfR23 := by
  refine ⟨fun s t i rd hd hc h => exec_valid_dest hd hc h, fun s t j hv hr h => ?_,
    fun s i a hmem hv => fails_of_unwritten hmem hv, fun s p j hp => ?_⟩
  · exact step_preserves (P := fun s => s.valid j = true) (fun s t same hP => same.valid j ▸ hP)
      (fun s t run hP => runCommand_keeps_valid run hP) hr h hv
  · exact ⟨s.resetEdge, clockEdge_reset hp s, State.valid_resetEdge s j⟩

/-- Settles O10: the state at power-up field by field, and an edge with RST = 1 as `State.resetEdge`. -/
theorem resetStateOfR34 : Obligations.ResetStateOfR34 :=
  ⟨⟨rfl, rfl, rfl, rfl, rfl, rfl, rfl⟩,
    fun s _ hp => ⟨s.resetEdge, clockEdge_reset hp s, rfl, rfl, rfl, rfl, rfl, rfl, rfl⟩⟩

end Sys2Proof.Machine
end

/-! ## Support: performing a command word is the Step function

60_exceptions R212 and R215, 10_state R24: the block's own way of performing a word against the spec's, from any two states
with the same block. -/

section
namespace Sys2Proof.Machine

/-! The checks, the effect and STAT read the block's part of the state, and LOAD the sampled DIN; nothing else. -/

theorem SameBlock.check_eq {s t : State} (h : SameBlock s t) (E : Word → Word → Config.CipherAnswer) (i : Instr) :
    check E i s = check E i t := by
  have hvalid (a : RegIdx) : s.valid a = t.valid a := h.valid a
  obtain ⟨-, -, -, hcv, hkey, hkv, hctr, htv, -, -⟩ := h
  simp [check, *]

theorem SameBlock.checkWord_eq {s t : State} (h : SameBlock s t) (E : Word → Word → Config.CipherAnswer) (w : CmdWord) :
    checkWord E w s = checkWord E w t := by
  cases hd : decode w with
  | instr i => simp only [checkWord, hd, h.check_eq E i]
  | illegal why => simp only [checkWord, hd]

theorem SameBlock.stat_eq {s t : State} (h : SameBlock s t) : s.stat = t.stat := by
  obtain ⟨-, hrv, -, hcv, -, hkv, -, htv, hlast, hseen⟩ := h
  simp only [State.stat, hrv, hcv, hkv, htv, hlast, hseen]

theorem SameBlock.setReg {s t : State} {v v' : Word} (h : SameBlock s t) (rd : RegIdx) (hv : v = v') :
    SameBlock (s.setReg rd v) (t.setReg rd v') := by
  obtain ⟨hr, hrv, hrest⟩ := h
  subst hv
  exact ⟨congrArg (·.set rd v) hr, congrArg (markValid · rd) hrv, hrest⟩

theorem SameBlock.perform_congr {s t : State} (h : SameBlock s t) (hdin : s.din = t.din)
    (E : Word → Word → Config.CipherAnswer) (i : Instr) :
    SameBlock (perform E i s).1 (perform E i t).1 ∧ (perform E i s).2 = (perform E i t).2 := by
  have ⟨hr, hrv, hc, hcv, hkey, hkv, hctr, htv, hlast, hseen⟩ := h
  have hreg (a : RegIdx) : s.reg a = t.reg a := State.reg_congr hr a
  cases i with
  | nop => exact ⟨h, rfl⟩
  | read a => exact ⟨h, hreg a⟩
  | rdstat => exact ⟨h, congrArg (·.setWidth 128) h.stat_eq⟩
  | load rd | xor rd | add rd | adds rd | rotl rd | scram rd | getctr rd =>
    exact ⟨h.setReg rd (by simp only [hdin, hreg, hc, hctr]), rfl⟩
  | setc | setkey | keygen | setctr => simp [perform, SameBlock, *]
  | ctrx rd a => cases hE : E t.key t.ctr <;> simp [perform, SameBlock, *]

theorem hostSideKept_perform (E : Word → Word → Config.CipherAnswer) (i : Instr) (s : State) :
    HostSideKept s (perform E i s).1 := by
  cases i with
  | ctrx rd a => cases hE : E s.key s.ctr <;> simp [perform, HostSideKept, hE]
  | _ => exact ⟨rfl, rfl, rfl, rfl, rfl, rfl⟩

theorem runCommand_completes (s : State) : ∃ t, runCommand s = .next t := by
  cases hd : decode s.cmd with
  | instr i => exact runCommand_instr hd ▸ exec_completes i s
  | illegal why => exact ⟨_, runCommand_illegal hd⟩

/-- Performing a word does not touch the host's side: the phase, the latches, the offer and the list. -/
theorem runCommand_hostSideKept {s t : State} (h : runCommand s = .next t) : HostSideKept s t := by
  obtain ⟨st, -, -, rfl⟩ | ⟨-, rfl⟩ | ⟨i, -, -, -, rfl⟩ := runCommand_cases h
  · exact ⟨rfl, rfl, rfl, rfl, rfl, rfl⟩
  · exact ⟨rfl, rfl, rfl, rfl, rfl, rfl⟩
  · exact hostSideKept_perform Config.cipher i s

/-! Step, one equation per way a word can end (60_exceptions R215). -/

theorem specStep_of_checkWord_ne_ok {E : Word → Word → Config.CipherAnswer} {s : State} {w : CmdWord} {din : Word}
    (h : checkWord E w s ≠ .ok) :
    SameBlock (s.fail (checkWord E w s)) (specStep E s w din).1 ∧
      (specStep E s w din).2 = ((checkWord E w s).code, 0#128) := by
  have hdin : checkWord E w { s with din := din } = checkWord E w s :=
    SameBlock.checkWord_eq (.refl s) E w
  cases hd : decode w with
  | instr i =>
    simp only [specStep, hd, hdin, ne_eq, h, not_false_eq_true, if_true, and_true]
    exact .refl _
  | illegal why =>
    simp only [specStep, checkWord, hd]
    exact ⟨.refl _, rfl⟩

theorem specStep_rdstat {E : Word → Word → Config.CipherAnswer} {s : State} {w : CmdWord} {din : Word}
    (hd : decode w = .instr .rdstat) :
    specStep E s w din = ({ s with din := din }, 0#4, s.stat.setWidth 128) := by
  have hok : checkWord E w { s with din := din } = .ok := by simp only [checkWord, hd]; rfl
  simp only [specStep, hd, hok, ne_eq, not_true_eq_false, if_false]
  rfl

theorem specStep_of_check_ok {E : Word → Word → Config.CipherAnswer} {s : State} {w : CmdWord} {din : Word} {i : Instr}
    (hd : decode w = .instr i) (hi : i ≠ .rdstat) (h : check E i s = .ok) :
    specStep E s w din = ({ (perform E i { s with din := din }).1 with lastErr := 0#4 }, 0#4,
      (perform E i { s with din := din }).2) := by
  have hok : checkWord E w { s with din := din } = .ok := by
    simp only [checkWord, hd]
    exact (SameBlock.check_eq (.refl s) E i).trans h
  simp only [specStep, hd, hok, hi, ne_eq, not_true_eq_false, not_false_eq_true, if_false, if_true]

/-- Performing the sampled word is Step, from any state `s` with the same block as the state `u` that performs it: the block
after it, and the response. -/
theorem runCommand_eq_specStep {s u t : State} (same : SameBlock u s) (h : runCommand u = .next t) :
    SameBlock t (specStep Config.cipher s u.cmd u.din).1 ∧
      t.rsp = some ⟨(specStep Config.cipher s u.cmd u.din).2.1, (specStep Config.cipher s u.cmd u.din).2.2⟩ := by
  obtain ⟨st, hst, hcheck, rfl⟩ | ⟨hd, rfl⟩ | ⟨i, hd, hi, hok, rfl⟩ := runCommand_cases h
  · rw [same.checkWord_eq] at hcheck
    subst hcheck
    obtain ⟨hblock, hout⟩ := specStep_of_checkWord_ne_ok (din := u.din) hst
    rw [hout]
    obtain ⟨hr, hrv, hc, hcv, hkey, hkv, hctr, htv, -, -⟩ := same
    have hfail : SameBlock (u.fail (checkWord Config.cipher u.cmd s)) (s.fail (checkWord Config.cipher u.cmd s)) :=
      ⟨hr, hrv, hc, hcv, hkey, hkv, hctr, htv, rfl, rfl⟩
    exact ⟨hfail.trans hblock, rfl⟩
  · rw [specStep_rdstat hd]
    exact ⟨same, by simp [same.stat_eq]⟩
  · rw [specStep_of_check_ok hd hi (same.check_eq _ i ▸ hok)]
    obtain ⟨⟨hr, hrv, hc, hcv, hkey, hkv, hctr, htv, -, hseen⟩, hout⟩ :=
      SameBlock.perform_congr (t := { s with din := u.din }) same rfl Config.cipher i
    exact ⟨⟨hr, hrv, hc, hcv, hkey, hkv, hctr, htv, rfl, hseen⟩, by simp [hout]⟩

end Sys2Proof.Machine
end

/-! ## A list of commands: 20_memory R60 and 10_state R24 -/

section
namespace Sys2Proof.Machine

/-- A run of the machine and one step more. -/
theorem core_run_step {k : Nat} {s t : State} (h : Host.Core.run Sys2Proof.core k s = .next t) :
    Host.Core.run Sys2Proof.core (k + 1) s = step t := by
  induction k generalizing s with
  | zero =>
    cases h
    cases ht : step t with
    | next u => exact core_run_next ht
    | fault a => cases a
    | refused a => exact core_run_refused ht
  | succ k ih =>
    cases hs : step s with
    | next u => exact (core_run_next hs).trans (ih ((core_run_next hs).symm.trans h))
    | fault a => cases a
    | refused a => exact absurd ((core_run_refused hs).symm.trans h) (by simp)

theorem composeStep_take_succ {E : Word → Word → Config.CipherAnswer} {s : State} {xs : List Transaction} {k : Nat}
    {x : Transaction} (hx : xs[k]? = some x) :
    composeStep E s (xs.take (k + 1)) = (specStep E (composeStep E s (xs.take k)) x.cmd x.din).1 := by
  simp only [composeStep, List.take_add_one, hx, Option.toList_some, List.foldl_append, List.foldl_cons, List.foldl_nil]

/-- An idle block with nothing on offer takes and performs the next command of its list in one step. -/
theorem step_command {s : State} {x : Transaction} (hidle : s.phase = .idle) (hoffer : s.offer = none)
    (hx : s.host[s.n]? = some (.command x)) :
    ∃ t, runCommand (s.accept x) = .next t ∧ step s = .next t.moveOn := by
  obtain ⟨t, ht⟩ := runCommand_completes (s.accept x)
  exact ⟨t, ht, by simp [step, hx, commandMove, hidle, hoffer, ht]⟩

/-- `t` is where the block stands that was at `s` and has taken the first `k` of the whole commands `xs`: idle and ready for
the next, its block and last response those of the sequential composition of Step (20_memory R60). -/
structure HasTaken (xs : List Transaction) (s : State) (k : Nat) (t : State) : Prop where
  phase : t.phase = .idle
  offer : t.offer = none
  host : t.host = xs.map .command
  n : t.n = k
  block : SameBlock t (composeStep Config.cipher s (xs.take k))
  rsp : ∀ (j : Nat) (x : Transaction), k = j + 1 → xs[j]? = some x →
    let out := specStep Config.cipher (composeStep Config.cipher s (xs.take j)) x.cmd x.din
    t.rsp = some ⟨out.2.1, out.2.2⟩

theorem HasTaken.exists_step {xs : List Transaction} {s t : State} {k : Nat} {x : Transaction} (h : HasTaken xs s k t)
    (hx : xs[k]? = some x) : ∃ u, step t = .next u ∧ HasTaken xs s (k + 1) u := by
  obtain ⟨v, hrun, hstep⟩ := step_command (x := x) h.phase h.offer (by simp [h.host, h.n, hx])
  obtain ⟨hphase, -, -, hoffer, hhost, hn⟩ := runCommand_hostSideKept hrun
  obtain ⟨hblock, hrsp⟩ := runCommand_eq_specStep (u := t.accept x) h.block hrun
  refine ⟨v.moveOn, hstep, hphase.trans h.phase, hoffer, hhost.trans h.host, congrArg (· + 1) (hn.trans h.n), ?_, ?_⟩
  · rw [composeStep_take_succ hx]
    exact hblock
  · intro j y hj hy
    cases hj
    cases hx.symm.trans hy
    exact hrsp

/-- With every command taken there is no move left. -/
theorem HasTaken.step_eq_self {xs : List Transaction} {s t : State} (h : HasTaken xs s xs.length t) :
    step t = .next t := by
  simp [step, h.host, h.n]

theorem core_run_hasTaken {xs : List Transaction} {s : State} (h : HasTaken xs s 0 s) {k : Nat} (hk : k ≤ xs.length) :
    ∃ t, Host.Core.run Sys2Proof.core k s = .next t ∧ HasTaken xs s k t := by
  induction k with
  | zero => exact ⟨s, rfl, h⟩
  | succ k ih =>
    obtain ⟨t, hrun, ht⟩ := ih (Nat.le_of_succ_le hk)
    obtain ⟨u, hstep, hu⟩ := ht.exists_step (List.getElem?_eq_getElem hk)
    exact ⟨u, (core_run_step hrun).trans hstep, hu⟩

/-- Settles O30: by induction on the number of commands taken, each step of the machine is Step on the state the commands
before it have left. -/
theorem commandListOfR60 : Obligations.CommandListOfR60 := by
  intro xs s k hidle hoffer hn hhost hk
  have hstart : HasTaken xs s 0 s := ⟨hidle, hoffer, hhost, hn, .refl s, by simp⟩
  obtain ⟨t, hrun, ht⟩ := core_run_hasTaken hstart hk
  exact ⟨t, hrun, ht.n, ht.block, ht.rsp, fun hlen => by subst hlen; exact ht.step_eq_self⟩

end Sys2Proof.Machine
end

/-! ## Illegal words: 30_encoding R85 -/

section
namespace Sys2Proof

/-- The fields of a word with a row's OP do not fit the row exactly when a field the row marks "0" is not 0. -/
theorem OpRow.fits_eq_false_iff {row : OpRow} {f : Fields} (hop : row.op = f.op) :
    row.fits f = false ↔ (row.usesRd = false ∧ f.rd ≠ 0#3) ∨ (row.usesRs1 = false ∧ f.rs1 ≠ 0#3) ∨
      (row.usesRs2 = false ∧ f.rs2 ≠ 0#3) ∨ (row.usesImm = false ∧ f.imm ≠ 0#32) := by
  simp only [OpRow.fits, hop, BEq.rfl, Bool.true_and, Bool.and_eq_false_iff, Bool.or_eq_false_iff, beq_eq_false_iff_ne,
    or_assoc]

/-! The decoder's three ways to an illegal word: RES, an OP in no row, and the fields of the OP's row. -/

theorem decodeFields_of_res_ne_zero {f : Fields} (hres : f.res ≠ 0#15) : decodeFields f = .illegal .reservedNonzero :=
  if_pos hres

theorem decodeFields_of_unlisted {f : Fields} (hres : f.res = 0#15) (hop : ∀ row ∈ opRows, row.op ≠ f.op) :
    decodeFields f = .illegal .unlistedOp := by
  simp only [opRows, List.forall_mem_cons] at hop
  simp [decodeFields, hres, Ne.symm, hop]

/-- A word with a row's OP and RES = 0 is illegal exactly when its fields do not fit that row. -/
theorem decodeFields_illegal_of_row {f : Fields} {row : OpRow} (hres : f.res = 0#15) (hrow : row ∈ opRows)
    (hop : row.op = f.op) : (∃ why, decodeFields f = .illegal why) ↔ row.fits f = false := by
  obtain ⟨imm, op, rd, rs1, rs2, res⟩ := f
  subst hres hop
  simp only [opRows, List.mem_cons, List.not_mem_nil, or_false] at hrow
  rcases hrow with rfl | rfl | rfl | rfl | rfl | rfl | rfl | rfl | rfl | rfl | rfl | rfl | rfl | rfl | rfl <;>
    simp [decodeFields, need_illegal, OpRow.fits]

theorem decodeFields_illegal_iff (f : Fields) :
    (∃ why, decodeFields f = .illegal why) ↔
      (∀ row ∈ opRows, row.op ≠ f.op) ∨ f.res ≠ 0#15 ∨ ∃ row ∈ opRows, row.op = f.op ∧ row.fits f = false := by
  by_cases hres : f.res = 0#15
  · by_cases hlisted : ∃ row ∈ opRows, row.op = f.op
    · obtain ⟨row, hrow, hop⟩ := hlisted
      constructor
      · intro h
        exact .inr (.inr ⟨row, hrow, hop, (decodeFields_illegal_of_row hres hrow hop).1 h⟩)
      · rintro (hun | hne | ⟨row', hrow', hop', hfits⟩)
        · exact absurd hop (hun row hrow)
        · exact absurd hres hne
        · exact (decodeFields_illegal_of_row hres hrow' hop').2 hfits
    · have hun : ∀ row ∈ opRows, row.op ≠ f.op := fun row hrow hop => hlisted ⟨row, hrow, hop⟩
      exact iff_of_true ⟨_, decodeFields_of_unlisted hres hun⟩ (.inl hun)
  · exact iff_of_true ⟨_, decodeFields_of_res_ne_zero hres⟩ (.inr (.inl hres))

end Sys2Proof

namespace Sys2Proof.Machine

theorem completesIllegal_of_decode {w : CmdWord} {why : Illegal} (h : decode w = .illegal why) : CompletesIllegal w := by
  rintro s rfl
  exact ⟨s.fail .illegal, runCommand_illegal h, endsWith_fail s .illegal⟩

/-- Settles O4: RES is tested first, an OP of no row falls through the decoder, and one of a row answers by whether the fields
fit it; every illegal word ends in `fail`. -/
theorem illegalWordsAreThoseOfR85 : Obligations.IllegalWordsAreThoseOfR85 := by
  refine ⟨fun w => (decodeFields_illegal_iff (fields w)).trans ?_, fun w why h => completesIllegal_of_decode h⟩
  refine or_congr_right (or_congr_right (exists_congr fun row => and_congr_right fun _ => and_congr_right fun hop => ?_))
  exact OpRow.fits_eq_false_iff hop

end Sys2Proof.Machine
end

/-! ## Support: rotation

40_arithmetic R120 to R122: a rotated value bit by bit, and the amounts of two rotations added. -/

section
namespace Sys2Proof.Machine

theorem rotl128_eq_self {n : Nat} (h : n % 128 = 0) (v : Word) : rotl128 v n = v := if_pos h

/-- Bit k of a value is bit k + n, counted modulo 128, of the value rotated left by n. -/
theorem getLsbD_rotl128 (v : Word) (n : Nat) {k : Nat} (hk : k < 128) :
    (rotl128 v n).getLsbD ((k + n) % 128) = v.getLsbD k := by
  by_cases hn : n % 128 = 0
  · rw [rotl128_eq_self hn, show (k + n) % 128 = k by omega]
  · have hrot : rotl128 v n = v <<< (n % 128) ||| v >>> (128 - n % 128) := if_neg hn
    rw [hrot, BitVec.getLsbD_or, BitVec.getLsbD_shiftLeft, BitVec.getLsbD_ushiftRight]
    by_cases hwrap : k + n % 128 < 128
    · have hpos : (k + n) % 128 = k + n % 128 := by omega
      have hhigh : v.getLsbD (128 - n % 128 + (k + n % 128)) = false := v.getLsbD_of_ge _ (by omega)
      simp [hpos, hwrap, hhigh]
    · have hpos : (k + n) % 128 = k + n % 128 - 128 := by omega
      have hlow : k + n % 128 - 128 < n % 128 := by omega
      have hback : 128 - n % 128 + (k + n % 128 - 128) = k := by omega
      simp [hpos, hlow, hback]

/-- A value is a rotation of another if its bits are those, n places on. -/
theorem eq_rotl128_of_getLsbD {u v : Word} {n : Nat}
    (h : ∀ k < 128, u.getLsbD ((k + n) % 128) = v.getLsbD k) : u = rotl128 v n := by
  refine BitVec.eq_of_getLsbD_eq fun j hj => ?_
  have hk : (j + (128 - n % 128)) % 128 < 128 := Nat.mod_lt _ (by decide)
  have hback : ((j + (128 - n % 128)) % 128 + n) % 128 = j := by omega
  have hu := h _ hk
  have hv := getLsbD_rotl128 v n hk
  rw [hback] at hu hv
  exact hu.trans hv.symm

theorem rotl128_rotl128 (v : Word) (m n : Nat) : rotl128 (rotl128 v m) n = rotl128 v (m + n) := by
  refine eq_rotl128_of_getLsbD fun k hk => ?_
  have hpos : (k + (m + n)) % 128 = ((k + m) % 128 + n) % 128 := by omega
  rw [hpos, getLsbD_rotl128 _ n (Nat.mod_lt _ (by decide)), getLsbD_rotl128 v m hk]

/-- A rotation by n undoes the rotation by the amount of ROTR. -/
theorem rotl128_undo (v : Word) (n : Nat) : rotl128 (rotl128 v ((128 - n % 128) % 128)) n = v := by
  rw [rotl128_rotl128]
  exact rotl128_eq_self (by omega) v

end Sys2Proof.Machine
end

/-! ## Support: the instructions the pseudo-instructions expand to, where their source is written -/

section
namespace Sys2Proof.Machine

theorem exec_adds_of_valid {s : State} {rs : RegIdx} (h : s.valid rs = true) (rd : RegIdx) (imm : BitVec 32) :
    exec (.adds rd rs imm) s = .next ((s.setReg rd (s.reg rs + imm.setWidth 128)).succeed 0#128) :=
  State.source_valid h fun a => .next ((s.setReg rd (add128 a (zextImm imm))).succeed 0#128)

theorem exec_rotl_of_valid {s : State} {rs : RegIdx} (h : s.valid rs = true) (rd : RegIdx) (imm : BitVec 32) :
    exec (.rotl rd rs imm) s = .next ((s.setReg rd (rotl128 (s.reg rs) imm.toNat)).succeed 0#128) :=
  State.source_valid h fun a => .next ((s.setReg rd (rotl128 a imm.toNat)).succeed 0#128)

theorem exec_setctr_of_valid {s : State} {rs : RegIdx} (h : s.valid rs = true) :
    exec (.setctr rs) s = .next ((s.setCtr (s.reg rs)).succeed 0#128) :=
  State.source_valid h fun a => .next ((s.setCtr a).succeed 0#128)

/-- A sequence of one instruction that writes one register. -/
theorem execAll_writesOnlyReg {i : Instr} {s : State} {rd : RegIdx} {v : Word}
    (h : exec i s = .next ((s.setReg rd v).succeed 0#128)) : ∃ t, execAll [i] s = .next t ∧ WritesOnlyReg rd v s t :=
  ⟨_, execAll_cons_next h, writesOnlyReg_setReg s rd v⟩

/-- A 32-bit amount added to a 128-bit value (40_arithmetic R116). -/
theorem toNat_add_setWidth (v : Word) (imm : BitVec 32) :
    (v + imm.setWidth 128).toNat = (v.toNat + imm.toNat) % 2 ^ 128 := by
  rw [BitVec.toNat_add, BitVec.toNat_setWidth_of_le (by decide)]

end Sys2Proof.Machine
end

/-! ## The pseudo-instructions: 30_encoding R88 -/

section
namespace Sys2Proof.Machine

/-! The assembler's side: an operand of each kind, and a mnemonic by the kinds of its operands (30_encoding R87). -/

@[simp] theorem parseReg_regText (i : RegIdx) : parseReg (regText i) = some i := by
  revert i; decide

@[simp] theorem asm1_regText (mk : RegIdx → List Instr) (a : RegIdx) :
    asm1 mk [regText a] = some (asmWords (mk a)) := by
  simp [asm1]

@[simp] theorem asm2_regText (mk : RegIdx → RegIdx → List Instr) (a b : RegIdx) :
    asm2 mk [regText a, regText b] = some (asmWords (mk a b)) := by
  simp [asm2]

theorem asmImm_regText (mk : RegIdx → RegIdx → BitVec 32 → List Instr) (a b : RegIdx) {n : BitVec 32}
    {imm : List Char} (h : parseImm imm = some n) : asmImm mk [regText a, regText b, imm] = some (asmWords (mk a b n)) := by
  simp [asmImm, h]

theorem assemblesTo_mov (rd rs : RegIdx) : AssemblesTo "MOV" [regText rd, regText rs] (expandPseudo (.mov rd rs)) :=
  asm2_regText _ rd rs

theorem assemblesTo_inc (rd : RegIdx) : AssemblesTo "INC" [regText rd] (expandPseudo (.inc rd)) :=
  asm1_regText _ rd

theorem assemblesTo_rotr (rd rs : RegIdx) {n : BitVec 32} {imm : List Char} (h : parseImm imm = some n) :
    AssemblesTo "ROTR" [regText rd, regText rs, imm] (expandPseudo (.rotr rd rs n)) :=
  asmImm_regText _ rd rs h

theorem assemblesTo_seek (rt rs : RegIdx) {k : BitVec 32} {imm : List Char} (h : parseImm imm = some k) :
    AssemblesTo "SEEK" [regText rt, regText rs, imm] (expandPseudo (.seek rt rs k)) :=
  asmImm_regText _ rt rs h

/-! The block's side: what each expansion does. -/

theorem execAll_mov {s : State} {rs : RegIdx} (h : s.valid rs = true) (rd : RegIdx) :
    ∃ t, execAll (expandPseudo (.mov rd rs)) s = .next t ∧ WritesOnlyReg rd (s.reg rs) s t :=
  execAll_writesOnlyReg (exec_rotl_of_valid h rd 0#32)

theorem execAll_inc {s : State} {rd : RegIdx} (h : s.valid rd = true) :
    ∃ t, execAll (expandPseudo (.inc rd)) s = .next t ∧ WritesOnlyReg rd (s.reg rd + 1#128) s t :=
  execAll_writesOnlyReg (exec_adds_of_valid h rd 1#32)

/-- The amount ROTR expands to fits an immediate. -/
theorem toNat_rotrAmount (n : BitVec 32) :
    (BitVec.ofNat 32 ((128 - n.toNat % 128) % 128)).toNat = (128 - n.toNat % 128) % 128 := by
  rw [BitVec.toNat_ofNat]
  omega

theorem execAll_rotr {s : State} {rs : RegIdx} (h : s.valid rs = true) (rd : RegIdx) (n : BitVec 32) :
    ∃ t, execAll (expandPseudo (.rotr rd rs n)) s = .next t ∧
      WritesOnlyReg rd (rotl128 (s.reg rs) ((128 - n.toNat % 128) % 128)) s t := by
  rw [← toNat_rotrAmount]
  exact execAll_writesOnlyReg (exec_rotl_of_valid h rd _)

/-- SEEK: ADDS leaves the counter block in rt, which is then a written register, and SETCTR takes it from there. -/
theorem execAll_seek {s : State} {rs : RegIdx} (h : s.valid rs = true) (rt : RegIdx) (k : BitVec 32) :
    execAll (expandPseudo (.seek rt rs k)) s =
      .next ((((s.setReg rt (s.reg rs + k.setWidth 128)).succeed 0#128).setCtr (s.reg rs + k.setWidth 128)).succeed 0#128) := by
  have hsum := exec_adds_of_valid h rt k
  have hctr := exec_setctr_of_valid (s := (s.setReg rt (s.reg rs + k.setWidth 128)).succeed 0#128) (rs := rt) (by simp)
  simp only [State.reg_succeed, State.reg_setReg_same] at hctr
  exact (execAll_cons_next hsum).trans (execAll_cons_next hctr)

/-- Settles O6: each line assembles by its operands' kinds; MOV, INC and ROTR are one register write each, and SEEK a register
write and SETCTR of it. -/
theorem pseudoInstructionsOfR88 : Obligations.PseudoInstructionsOfR88 := by
  refine ⟨fun rd rs n imm h => ?_, fun rd rs s h => ⟨rfl, execAll_mov h rd⟩, fun rd s h => ⟨rfl, execAll_inc h⟩,
    fun rd rs n s h => ⟨⟨_, toNat_rotrAmount n, rfl⟩, ?_⟩, fun rt rs k s h => ⟨rfl, _, execAll_seek h rt k, ?_⟩⟩
  · exact ⟨assemblesTo_mov rd rs, assemblesTo_inc rd, assemblesTo_rotr rd rs h, assemblesTo_seek rd rs h⟩
  · obtain ⟨t, hexec, hwrites⟩ := execAll_rotr h rd n
    exact ⟨t, _, hexec, hwrites, rotl128_undo (s.reg rs) n.toNat⟩
  · obtain ⟨hreg, hvalid, hother, hconst, hkey, -, hhost, hok⟩ :=
      writesOnlyReg_setReg s rt (s.reg rs + k.setWidth 128)
    exact ⟨toNat_add_setWidth (s.reg rs) k, rfl, hreg, hvalid, hother, hconst, hkey, hhost, hok⟩

end Sys2Proof.Machine
end

/-! ## Support: the words of one OP, and instructions with two source registers

30_encoding R84 to R86 for the "Encoding" and "ILLEGAL if" lines of an instruction's rule; 60_exceptions R211 for the checks
of its sources. -/

section
namespace Sys2Proof.Machine

/-- The decoder's row for an OP settles the words with that OP: legal are those that meet the row's need and have RES = 0. -/
theorem wordsWithOp_of_row {op : BitVec 8} {needs : Fields → Bool} {instr : Fields → Instr}
    (hrow : ∀ f : Fields, f.op = op → f.res = 0#15 → decodeFields f = need (needs f) (instr f)) :
    WordsWithOp op (fun f => needs f && f.res == 0#15) instr := by
  intro w hop
  refine ⟨fun hlegal => ?_, fun hillegal => ?_⟩
  · obtain ⟨hneeds, hres⟩ : needs (fields w) = true ∧ (fields w).res = 0#15 := by simpa using hlegal
    exact (hrow _ hop hres).trans (need_instr.2 ⟨hneeds, rfl⟩)
  · by_cases hres : (fields w).res = 0#15
    · have hneeds : needs (fields w) = false := by simpa [hres] using hillegal
      obtain ⟨why, hwhy⟩ := (need_illegal (i := instr (fields w))).2 hneeds
      exact completesIllegal_of_decode ((hrow _ hop hres).trans hwhy)
    · exact completesIllegal_of_decode (decodeFields_of_res_ne_zero hres)

/-- Two sources of which one is unwritten: UNINIT, whichever it is. -/
theorem fails_of_unwritten_pair {i : Instr} {s : State} {a b : RegIdx} (hi : sourcesOf i = [a, b])
    (h : s.valid a = false ∨ s.valid b = false) : Fails i .uninit s := by
  obtain ha | hb := h
  · exact fails_of_unwritten (by simp [hi]) ha
  · exact fails_of_unwritten (by simp [hi]) hb

theorem State.source_source_valid {s : State} {a b : RegIdx} (ha : s.valid a = true) (hb : s.valid b = true)
    (k : Word → Word → Result) :
    (s.source a fun x => s.source b fun y => k x y) = k (s.reg a) (s.reg b) := by
  rw [State.source_valid ha, State.source_valid hb]

end Sys2Proof.Machine
end

/-! ## XOR, ADD, ADDS and ROTL: 40_arithmetic R110 to R121 -/

section
namespace Sys2Proof.Machine

/-! XOR (R110, R111). -/

theorem wordsWithOp_xor :
    WordsWithOp 0x10#8 (fun f => f.imm == 0#32 && f.res == 0#15)
      (fun f => .xor (regOf f.rd) (regOf f.rs1) (regOf f.rs2)) :=
  wordsWithOp_of_row fun f hop hres => by simp [decodeFields, hop, hres]

theorem exec_xor_of_valid {s : State} {rs1 rs2 : RegIdx} (h1 : s.valid rs1 = true) (h2 : s.valid rs2 = true)
    (rd : RegIdx) : exec (.xor rd rs1 rs2) s = .next ((s.setReg rd (s.reg rs1 ^^^ s.reg rs2)).succeed 0#128) :=
  State.source_source_valid h1 h2 fun a b => .next ((s.setReg rd (a ^^^ b)).succeed 0#128)

/-- Byte k of an XOR is the XOR of the bytes k, as each is the same eight bits of its value. -/
theorem byte_xor (x y : Word) (k : Nat) : byte (x ^^^ y) k = byte x k ^^^ byte y k :=
  BitVec.extractLsb'_xor

/-- Settles O41: bytes are bits at a fixed place and XOR works bit by bit, and the instruction writes just the XOR. -/
theorem xorBytewiseOfR111 : Obligations.XorBytewiseOfR111 := by
  refine ⟨fun x y k _ => byte_xor x y k, fun rd rs1 rs2 s h1 h2 => ?_, fun x y => ?_⟩
  · exact ⟨_, exec_xor_of_valid h1 h2 rd, fun k _ => by simp [byte_xor]⟩
  · rw [BitVec.xor_assoc, BitVec.xor_self, BitVec.xor_zero]

/-- Settles O17: by the decoder's row, the check of the two sources, and the one register write. -/
theorem xorAsR110 : Obligations.XorAsR110 :=
  ⟨wordsWithOp_xor, fun _ _ _ _ h => fails_of_unwritten_pair rfl h,
    fun rd _ _ s h1 h2 => ⟨_, exec_xor_of_valid h1 h2 rd, writesOnlyReg_setReg s rd _⟩⟩

/-! ADD (R113). -/

theorem wordsWithOp_add :
    WordsWithOp 0x11#8 (fun f => f.imm == 0#32 && f.res == 0#15)
      (fun f => .add (regOf f.rd) (regOf f.rs1) (regOf f.rs2)) :=
  wordsWithOp_of_row fun f hop hres => by simp [decodeFields, hop, hres]

theorem exec_add_of_valid {s : State} {rs1 rs2 : RegIdx} (h1 : s.valid rs1 = true) (h2 : s.valid rs2 = true)
    (rd : RegIdx) : exec (.add rd rs1 rs2) s = .next ((s.setReg rd (s.reg rs1 + s.reg rs2)).succeed 0#128) :=
  State.source_source_valid h1 h2 fun a b => .next ((s.setReg rd (add128 a b)).succeed 0#128)

/-- Settles O18: the one register write is of the 128-bit sum, whose carry out is recorded nowhere. -/
theorem addAsR113 : Obligations.AddAsR113 :=
  ⟨wordsWithOp_add, fun _ _ _ _ h => fails_of_unwritten_pair rfl h,
    fun rd _ _ s h1 h2 => ⟨_, _, exec_add_of_valid h1 h2 rd, writesOnlyReg_setReg s rd _, BitVec.toNat_add _ _⟩⟩

/-! ADDS (R116). -/

theorem wordsWithOp_adds :
    WordsWithOp 0x12#8 (fun f => f.rs2 == 0#3 && f.res == 0#15) (fun f => .adds (regOf f.rd) (regOf f.rs1) f.imm) :=
  wordsWithOp_of_row fun f hop hres => by simp [decodeFields, hop, hres]

/-- Settles O19: the one register write is of the sum with the zero-extended amount. -/
theorem addsAsR116 : Obligations.AddsAsR116 :=
  ⟨wordsWithOp_adds, fun _ _ _ _ h => fails_of_unwritten (by simp [sourcesOf]) h,
    fun rd rs1 imm s h =>
      ⟨_, _, exec_adds_of_valid h rd imm, writesOnlyReg_setReg s rd _, toNat_add_setWidth (s.reg rs1) imm⟩⟩

/-! ROTL (R121). -/

theorem wordsWithOp_rotl :
    WordsWithOp 0x13#8 (fun f => f.rs2 == 0#3 && f.res == 0#15) (fun f => .rotl (regOf f.rd) (regOf f.rs1) f.imm) :=
  wordsWithOp_of_row fun f hop hres => by simp [decodeFields, hop, hres]

/-- Settles O20: the one register write is of the rotated value, whose bits are those of the source n places on. -/
theorem rotlAsR121 : Obligations.RotlAsR121 := by
  refine ⟨wordsWithOp_rotl, fun _ _ _ _ h => fails_of_unwritten (by simp [sourcesOf]) h, fun rd rs1 imm s h => ?_⟩
  refine ⟨_, exec_rotl_of_valid h rd imm, writesOnlyReg_setReg s rd _, fun k hk => ?_⟩
  simpa using getLsbD_rotl128 (s.reg rs1) imm.toNat hk

end Sys2Proof.Machine
end

/-! ## Support: C as an operand and as a destination

10_state R27 and 60_exceptions R211: the checks C_UNSET and C_LOCKED, and what performing a word can do to C. -/

section
namespace Sys2Proof.Machine

theorem State.constant_loaded {s : State} (h : s.cv = true) (k : Word → Result) : s.constant k = k s.c := by
  simp [State.constant, h]

theorem State.constant_unset {s : State} (h : s.cv = false) (k : Word → Result) :
    s.constant k = .next (s.fail .cUnset) := by
  simp [State.constant, h]

theorem State.unlocked_unset {s : State} (h : s.cv = false) (k : Result) : s.unlocked k = k := by
  simp [State.unlocked, h]

theorem State.unlocked_loaded {s : State} (h : s.cv = true) (k : Result) : s.unlocked k = .next (s.fail .cLocked) := by
  simp [State.unlocked, h]

theorem fails_of_exec_eq {i : Instr} {s : State} {st : Status} (h : exec i s = .next (s.fail st)) : Fails i st s :=
  ⟨_, h, endsWith_fail s st⟩

/-- With C loaded, an instruction whose checks pass is no SETC: C_LOCKED is among them. -/
theorem isSetc_eq_false_of_check_ok {E : Word → Word → Config.CipherAnswer} {i : Instr} {s : State}
    (h : check E i s = .ok) (hcv : s.cv = true) : isSetc i = false := by
  cases hi : isSetc i with
  | false => rfl
  | true => simp [check, hi, hcv, ite_eq_iff] at h

theorem constKept_perform (E : Word → Word → Config.CipherAnswer) {i : Instr} (hi : isSetc i = false) (s : State) :
    ConstKept s (perform E i s).1 := by
  cases i with
  | setc a => cases hi
  | ctrx rd a => cases hE : E s.key s.ctr <;> simp [perform, ConstKept, hE]
  | _ => exact ⟨rfl, rfl⟩

/-- No word performed with C loaded changes C or CV. -/
theorem runCommand_constKept {s t : State} (h : runCommand s = .next t) (hcv : s.cv = true) : ConstKept s t := by
  obtain ⟨st, -, -, rfl⟩ | ⟨-, rfl⟩ | ⟨i, -, -, hok, rfl⟩ := runCommand_cases h
  · exact ⟨rfl, rfl⟩
  · exact ⟨rfl, rfl⟩
  · exact constKept_perform Config.cipher (isSetc_eq_false_of_check_ok hok hcv) s

theorem SameBlock.constKept {s t : State} (h : SameBlock s t) : ConstKept s t := by
  obtain ⟨-, -, hc, hcv, -⟩ := h
  exact ⟨hc.symm, hcv.symm⟩

theorem constKept_trans {s t u : State} (h : ConstKept s t) (h' : ConstKept t u) : ConstKept s u := by
  obtain ⟨hc, hcv⟩ := h
  obtain ⟨hc', hcv'⟩ := h'
  exact ⟨hc'.trans hc, hcv'.trans hcv⟩

/-- A loaded C keeps its value through every step that is no reset. -/
theorem step_constKept {s t : State} (hcv : s.cv = true) (hr : s.resetNext = false) (h : step s = .next t) :
    ConstKept s t := by
  refine step_preserves (P := ConstKept s) (fun u v same kept => constKept_trans kept same.constKept)
    (fun u v run kept => ?_) hr h ⟨rfl, rfl⟩
  have hloaded : u.cv = true := kept.right.trans hcv
  exact constKept_trans kept (runCommand_constKept run hloaded)

end Sys2Proof.Machine
end

/-! ## SETC and SCRAM: 41_scrambler R140 to R142 -/

section
namespace Sys2Proof.Machine

/-! SETC (R141). -/

theorem wordsWithOp_setc :
    WordsWithOp 0x20#8 (fun f => f.rd == 0#3 && f.rs2 == 0#3 && f.imm == 0#32 && f.res == 0#15)
      (fun f => .setc (regOf f.rs1)) :=
  wordsWithOp_of_row fun f hop hres => by simp [decodeFields, hop, hres]

/-- SETC with its source written: the check of the lock, then the load. -/
theorem exec_setc_of_valid {s : State} {rs1 : RegIdx} (h : s.valid rs1 = true) :
    exec (.setc rs1) s = s.unlocked (.next ((s.setConst (s.reg rs1)).succeed 0#128)) :=
  State.source_valid h fun v => s.unlocked (.next ((s.setConst v).succeed 0#128))

theorem exec_setc_locked {s : State} {rs1 : RegIdx} (h : s.valid rs1 = true) (hcv : s.cv = true) :
    exec (.setc rs1) s = .next (s.fail .cLocked) :=
  (exec_setc_of_valid h).trans (State.unlocked_loaded hcv _)

theorem exec_setc_load {s : State} {rs1 : RegIdx} (h : s.valid rs1 = true) (hcv : s.cv = false) :
    exec (.setc rs1) s = .next ((s.setConst (s.reg rs1)).succeed 0#128) :=
  (exec_setc_of_valid h).trans (State.unlocked_unset hcv _)

/-- Settles O21: the source is checked before the lock, the effect is the one write of C, and a step without reset is at most
one command, of which none that passes its checks writes a loaded C. -/
theorem setcAsR141 : Obligations.SetcAsR141 := by
  refine ⟨wordsWithOp_setc, fun _ _ h => fails_of_unwritten (by simp [sourcesOf]) h,
    fun _ _ h hcv => fails_of_exec_eq (exec_setc_locked h hcv), fun rs1 s h hcv => ?_,
    fun s t hcv hr h => ?_⟩
  · exact ⟨_, exec_setc_load h hcv, rfl, rfl, ⟨rfl, rfl⟩, ⟨rfl, rfl⟩, ⟨rfl, rfl⟩, hostSideKept_succeed _ 0#128,
      endsOk_succeed _ 0#128⟩
  · obtain ⟨hc, hkept⟩ := step_constKept hcv hr h
    exact ⟨hc, hkept.trans hcv⟩

/-! SCRAM (R142, R140). -/

/-- The scrambler as one expression (R140). -/
theorem scramble_eq_stages (kx ky c : Word) : scramble kx ky c = rotl128 ((rotl128 kx 2 ^^^ ky) + c) 87 := rfl

theorem wordsWithOp_scram :
    WordsWithOp 0x21#8 (fun f => f.imm == 0#32 && f.res == 0#15)
      (fun f => .scram (regOf f.rd) (regOf f.rs1) (regOf f.rs2)) :=
  wordsWithOp_of_row fun f hop hres => by simp [decodeFields, hop, hres]

/-- SCRAM with both sources written: the check of C, then the register write. -/
theorem exec_scram_of_valid {s : State} {rs1 rs2 : RegIdx} (h1 : s.valid rs1 = true) (h2 : s.valid rs2 = true)
    (rd : RegIdx) :
    exec (.scram rd rs1 rs2) s =
      s.constant fun c => .next ((s.setReg rd (scramble (s.reg rs1) (s.reg rs2) c)).succeed 0#128) :=
  State.source_source_valid h1 h2 fun kx ky =>
    s.constant fun c => .next ((s.setReg rd (scramble kx ky c)).succeed 0#128)

theorem exec_scram_unset {s : State} {rs1 rs2 : RegIdx} (h1 : s.valid rs1 = true) (h2 : s.valid rs2 = true)
    (hcv : s.cv = false) (rd : RegIdx) : exec (.scram rd rs1 rs2) s = .next (s.fail .cUnset) :=
  (exec_scram_of_valid h1 h2 rd).trans (State.constant_unset hcv _)

theorem exec_scram_loaded {s : State} {rs1 rs2 : RegIdx} (h1 : s.valid rs1 = true) (h2 : s.valid rs2 = true)
    (hcv : s.cv = true) (rd : RegIdx) :
    exec (.scram rd rs1 rs2) s = .next ((s.setReg rd (scramble (s.reg rs1) (s.reg rs2) s.c)).succeed 0#128) :=
  (exec_scram_of_valid h1 h2 rd).trans (State.constant_loaded hcv _)

/-- Settles O22: the sources are checked before C, and the one register write is of the scrambler's four stages. -/
theorem scramAsR142 : Obligations.ScramAsR142 := by
  refine ⟨wordsWithOp_scram, fun _ _ _ _ h => fails_of_unwritten_pair rfl h,
    fun rd _ _ _ h1 h2 hcv => fails_of_exec_eq (exec_scram_unset h1 h2 hcv rd), fun rd rs1 rs2 s h1 h2 hcv => ?_⟩
  rw [← scramble_eq_stages]
  exact ⟨_, exec_scram_loaded h1 h2 hcv rd, writesOnlyReg_setReg s rd _⟩

end Sys2Proof.Machine
end

/-! ## Support: KEY and CTR as operands, and the ways CTRX can go

10_state R28 and R29, 60_exceptions R211: the checks KEY_UNSET and CTR_UNSET; 42_ctr R168: what CTRX answers, over every
cipher. -/

section
namespace Sys2Proof.Machine

theorem State.cipherKey_loaded {s : State} (h : s.kv = true) (k : Word → Result) : s.cipherKey k = k s.key := by
  simp [State.cipherKey, h]

theorem State.cipherKey_unset {s : State} (h : s.kv = false) (k : Word → Result) :
    s.cipherKey k = .next (s.fail .keyUnset) := by
  simp [State.cipherKey, h]

theorem State.counter_loaded {s : State} (h : s.tv = true) (k : Word → Result) : s.counter k = k s.ctr := by
  simp [State.counter, h]

theorem State.counter_unset {s : State} (h : s.tv = false) (k : Word → Result) :
    s.counter k = .next (s.fail .ctrUnset) := by
  simp [State.counter, h]

/-- The counter block after it moves on by one (R164). -/
theorem add128_zextImm_one (v : Word) : add128 v (zextImm 1#32) = v + 1#128 := rfl

/-! CTRX over any cipher, one equation per check, and one for the request. -/

theorem ctrxWith_keyUnset {s : State} {rs1 : RegIdx} (hv : s.valid rs1 = true) (hkv : s.kv = false)
    (E : Word → Word → Config.CipherAnswer) (rd : RegIdx) : ctrxWith E rd rs1 s = .next (s.fail .keyUnset) :=
  (State.source_valid hv _).trans (State.cipherKey_unset hkv _)

theorem ctrxWith_ctrUnset {s : State} {rs1 : RegIdx} (hv : s.valid rs1 = true) (hkv : s.kv = true) (htv : s.tv = false)
    (E : Word → Word → Config.CipherAnswer) (rd : RegIdx) : ctrxWith E rd rs1 s = .next (s.fail .ctrUnset) :=
  (State.source_valid hv _).trans ((State.cipherKey_loaded hkv _).trans (State.counter_unset htv _))

/-- With every check before PRIM_FAIL passed, the cipher is asked once, for the answer to (KEY, CTR). -/
theorem ctrxWith_request {s : State} {rs1 : RegIdx} (hv : s.valid rs1 = true) (hkv : s.kv = true) (htv : s.tv = true)
    (E : Word → Word → Config.CipherAnswer) (rd : RegIdx) :
    ctrxWith E rd rs1 s = s.applyKeystream rd (s.reg rs1) (E s.key s.ctr) :=
  (State.source_valid hv _).trans ((State.cipherKey_loaded hkv _).trans (State.counter_loaded htv _))

theorem ctrxWith_failure {E : Word → Word → Config.CipherAnswer} {s : State} {rs1 : RegIdx} (hv : s.valid rs1 = true)
    (hkv : s.kv = true) (htv : s.tv = true) (hE : E s.key s.ctr = .failure) (rd : RegIdx) :
    ctrxWith E rd rs1 s = .next (s.fail .primFail) := by
  rw [ctrxWith_request hv hkv htv, hE]
  rfl

theorem ctrxWith_block {E : Word → Word → Config.CipherAnswer} {s : State} {rs1 : RegIdx} {ks : Word}
    (hv : s.valid rs1 = true) (hkv : s.kv = true) (htv : s.tv = true) (hE : E s.key s.ctr = .block ks) (rd : RegIdx) :
    ctrxWith E rd rs1 s = .next ((s.setReg rd (s.reg rs1 ^^^ ks)).advanceCtr.succeed 0#128) := by
  rw [ctrxWith_request hv hkv htv, hE]
  rfl

/-- Two ciphers that agree on the one request, if it is made, give one CTRX: no other answer is looked at. -/
theorem ctrxWith_congr {E E' : Word → Word → Config.CipherAnswer} {s : State} {rs1 : RegIdx}
    (h : s.valid rs1 = true → s.kv = true → s.tv = true → E s.key s.ctr = E' s.key s.ctr) (rd : RegIdx) :
    ctrxWith E rd rs1 s = ctrxWith E' rd rs1 s := by
  cases hv : s.valid rs1 with
  | false => exact (State.source_unwritten hv _).trans (State.source_unwritten hv _).symm
  | true =>
    cases hkv : s.kv with
    | false => rw [ctrxWith_keyUnset hv hkv, ctrxWith_keyUnset hv hkv]
    | true =>
      cases htv : s.tv with
      | false => rw [ctrxWith_ctrUnset hv hkv htv, ctrxWith_ctrUnset hv hkv htv]
      | true => rw [ctrxWith_request hv hkv htv, ctrxWith_request hv hkv htv, h hv hkv htv]

/-- CTRX in place on a value with a keystream block added, where the cipher gives that block again: the block cancels. -/
theorem ctrxWith_cancels {E : Word → Word → Config.CipherAnswer} {s : State} {rd : RegIdx} {v ks : Word}
    (hv : s.valid rd = true) (hkv : s.kv = true) (htv : s.tv = true) (hE : E s.key s.ctr = .block ks)
    (hreg : s.reg rd = v ^^^ ks) : ∃ u, ctrxWith E rd rd s = .next u ∧ u.reg rd = v := by
  refine ⟨_, ctrxWith_block hv hkv htv hE rd, ?_⟩
  rw [State.reg_succeed, State.reg_advanceCtr, State.reg_setReg_same, hreg, BitVec.xor_assoc, BitVec.xor_self,
    BitVec.xor_zero]

end Sys2Proof.Machine
end

/-! ## SETKEY, SETCTR and CTRX: 42_ctr R162, R166 and R168 -/

section
namespace Sys2Proof.Machine

/-! SETKEY (R162). -/

theorem wordsWithOp_setkey :
    WordsWithOp 0x30#8 (fun f => f.rd == 0#3 && f.rs2 == 0#3 && f.imm == 0#32 && f.res == 0#15)
      (fun f => .setkey (regOf f.rs1)) :=
  wordsWithOp_of_row fun f hop hres => by simp [decodeFields, hop, hres]

theorem exec_setkey_of_valid {s : State} {rs1 : RegIdx} (h : s.valid rs1 = true) :
    exec (.setkey rs1) s = .next ((s.setKey (s.reg rs1)).succeed 0#128) :=
  State.source_valid h fun v => .next ((s.setKey v).succeed 0#128)

/-- Settles O23: the one check is of the source, and the effect is the one write of KEY, whatever KV was. -/
theorem setkeyAsR162 : Obligations.SetkeyAsR162 := by
  refine ⟨wordsWithOp_setkey, fun _ _ h => fails_of_unwritten (by simp [sourcesOf]) h, fun rs1 s h => ?_⟩
  exact ⟨_, exec_setkey_of_valid h, rfl, rfl, ⟨rfl, rfl⟩, ⟨rfl, rfl⟩, ⟨rfl, rfl⟩, hostSideKept_succeed _ 0#128,
    endsOk_succeed _ 0#128⟩

/-! SETCTR (R166). -/

theorem wordsWithOp_setctr :
    WordsWithOp 0x32#8 (fun f => f.rd == 0#3 && f.rs2 == 0#3 && f.imm == 0#32 && f.res == 0#15)
      (fun f => .setctr (regOf f.rs1)) :=
  wordsWithOp_of_row fun f hop hres => by simp [decodeFields, hop, hres]

/-- Settles O25: the one check is of the source, and the effect is the one write of CTR, whatever TV was. -/
theorem setctrAsR166 : Obligations.SetctrAsR166 := by
  refine ⟨wordsWithOp_setctr, fun _ _ h => fails_of_unwritten (by simp [sourcesOf]) h, fun rs1 s h => ?_⟩
  exact ⟨_, exec_setctr_of_valid h, rfl, rfl, ⟨rfl, rfl⟩, ⟨rfl, rfl⟩, ⟨rfl, rfl⟩, hostSideKept_succeed _ 0#128,
    endsOk_succeed _ 0#128⟩

/-! CTRX (R168). -/

theorem wordsWithOp_ctrx :
    WordsWithOp 0x34#8 (fun f => f.rs2 == 0#3 && f.imm == 0#32 && f.res == 0#15)
      (fun f => .ctrx (regOf f.rd) (regOf f.rs1)) :=
  wordsWithOp_of_row fun f hop hres => by simp [decodeFields, hop, hres]

/-- The instruction is CTRX with the external cipher. -/
theorem exec_ctrx (rd rs1 : RegIdx) (s : State) : exec (.ctrx rd rs1) s = ctrxWith Config.cipher rd rs1 s := rfl

/-- Settles O27: the checks in their order, then one request, whose block is added bit by bit and so byte by byte, and whose
failure changes nothing; the same block added again undoes it. -/
theorem ctrxAsR168 : Obligations.CtrxAsR168 := by
  refine ⟨wordsWithOp_ctrx, fun _ _ _ hv => fails_of_unwritten (by simp [sourcesOf]) hv,
    fun rd _ _ hv hkv => fails_of_exec_eq (ctrxWith_keyUnset hv hkv Config.cipher rd),
    fun rd _ _ hv hkv htv => fails_of_exec_eq (ctrxWith_ctrUnset hv hkv htv Config.cipher rd),
    fun rd rs1 s hv hkv htv => ?_, fun E rd rs1 s ks hv hkv htv hE => ?_,
    fun E E' rd rs1 s h => ctrxWith_congr h rd, exec_ctrx⟩
  · cases hE : Config.cipher s.key s.ctr with
    | failure => exact ⟨_, ctrxWith_failure hv hkv htv hE rd, endsWith_fail s .primFail⟩
    | block ks =>
      obtain ⟨hreg, hvalid, hother, hconst, hkey, -, hhost, hok⟩ := writesOnlyReg_setReg s rd (s.reg rs1 ^^^ ks)
      exact ⟨_, ctrxWith_block hv hkv htv hE rd, hreg, hvalid, hother, toNat_add_setWidth s.ctr 1#32, htv, hconst, hkey,
        hhost, hok⟩
  · have hvalid : (s.setReg rd (s.reg rs1 ^^^ ks)).valid rd = true := State.valid_setReg_same s rd _
    have hreg : (s.setReg rd (s.reg rs1 ^^^ ks)).reg rd = s.reg rs1 ^^^ ks := State.reg_setReg_same s rd _
    refine ⟨_, ctrxWith_block hv hkv htv hE rd, fun k _ => ?_, add128_zextImm_one s.ctr,
      ctrxWith_cancels hvalid hkv htv hE hreg⟩
    rw [State.reg_succeed, State.reg_advanceCtr, hreg, byte_xor]

end Sys2Proof.Machine
end

/-! ## Support: an instruction as its checks and its effect, and which of these read DIN

60_exceptions R214 as an equation; 20_memory R53 and 43_transfer R190 for the sampled DIN. -/

section
namespace Sys2Proof.Machine

/-- An instruction other than RDSTAT whose checks pass has its effect and answers OK. -/
theorem exec_of_check_ok {i : Instr} {s : State} (hi : i ≠ .rdstat) (h : check Config.cipher i s = .ok) :
    exec i s = .next ((perform Config.cipher i s).1.succeed (perform Config.cipher i s).2) := by
  obtain ⟨t, ht⟩ := exec_completes i s
  obtain ⟨st, hst, hcheck, -⟩ | ⟨-, hrdstat, -⟩ | ⟨-, -, rfl⟩ := exec_cases ht
  · exact absurd (hcheck.symm.trans h) hst
  · exact absurd hrdstat hi
  · exact ht

/-- No check reads DIN. -/
theorem check_withDin (E : Word → Word → Config.CipherAnswer) (i : Instr) (s : State) (d : Word) :
    check E i { s with din := d } = check E i s :=
  SameBlock.check_eq (.refl s) E i

/-- Only the effect of LOAD reads DIN: any other carries it along. -/
theorem perform_withDin {i : Instr} (hi : ∀ rd, i ≠ .load rd) (E : Word → Word → Config.CipherAnswer) (s : State)
    (d : Word) : perform E i { s with din := d } = ({ (perform E i s).1 with din := d }, (perform E i s).2) := by
  cases i with
  | load rd => exact absurd rfl (hi rd)
  | ctrx rd a =>
    cases hE : E s.key s.ctr with
    | failure => simp only [perform, hE]
    | block ks => simp only [perform, hE]; rfl
  | _ => rfl

/-- An instruction other than LOAD does the same whatever was sampled from DIN. -/
theorem exec_withDin {i : Instr} (hi : ∀ rd, i ≠ .load rd) (s : State) (d : Word) :
    exec i { s with din := d } = mapNext (fun t => { t with din := d }) (exec i s) := by
  have hcheck := check_withDin Config.cipher i s d
  by_cases hok : check Config.cipher i s = .ok
  · by_cases hrdstat : i = .rdstat
    · subst hrdstat
      rfl
    · rw [exec_of_check_ok hrdstat hok, exec_of_check_ok hrdstat (hcheck.trans hok), perform_withDin hi]
      rfl
  · rw [exec_of_check_ne_ok hok, exec_of_check_ne_ok (hcheck ▸ hok), hcheck]
    rfl

end Sys2Proof.Machine
end

/-! ## NOP, LOAD, READ and RDSTAT: 43_transfer R190 to R193 -/

section
namespace Sys2Proof.Machine

/-- A success on its own changes LASTERR and the response, no register. -/
theorem succeed_frame (s : State) (d : Word) :
    RegsKept s (s.succeed d) ∧ ConstKept s (s.succeed d) ∧ KeyKept s (s.succeed d) ∧ CtrKept s (s.succeed d) ∧
      HostSideKept s (s.succeed d) ∧ EndsOk d s (s.succeed d) :=
  ⟨⟨rfl, rfl⟩, ⟨rfl, rfl⟩, ⟨rfl, rfl⟩, ⟨rfl, rfl⟩, hostSideKept_succeed s d, endsOk_succeed s d⟩

/-! NOP (R193). -/

theorem wordsWithOp_nop :
    WordsWithOp 0x00#8 (fun f => f.rd == 0#3 && f.rs1 == 0#3 && f.rs2 == 0#3 && f.imm == 0#32 && f.res == 0#15)
      (fun _ => .nop) :=
  wordsWithOp_of_row fun f hop hres => by simp [decodeFields, hop, hres]

theorem exec_nop (s : State) : exec .nop s = .next (s.succeed 0#128) := rfl

/-- Settles O13: NOP is a success on its own, in every state. -/
theorem nopAsR193 : Obligations.NopAsR193 :=
  ⟨wordsWithOp_nop, fun s => ⟨_, exec_nop s, succeed_frame s 0#128⟩⟩

/-! LOAD (R190). -/

theorem wordsWithOp_load :
    WordsWithOp 0x01#8 (fun f => f.rs1 == 0#3 && f.rs2 == 0#3 && f.imm == 0#32 && f.res == 0#15)
      (fun f => .load (regOf f.rd)) :=
  wordsWithOp_of_row fun f hop hres => by simp [decodeFields, hop, hres]

theorem exec_load (rd : RegIdx) (s : State) : exec (.load rd) s = .next ((s.setReg rd s.din).succeed 0#128) := rfl

/-- Settles O14: the one register write is of the sampled DIN, and neither the checks nor the effect of another instruction
read it. -/
theorem loadAsR190 : Obligations.LoadAsR190 :=
  ⟨wordsWithOp_load, fun rd s => ⟨_, exec_load rd s, writesOnlyReg_setReg s rd s.din⟩,
    fun _ s d hi => exec_withDin hi s d⟩

/-! READ (R191). -/

theorem wordsWithOp_read :
    WordsWithOp 0x02#8 (fun f => f.rd == 0#3 && f.rs2 == 0#3 && f.imm == 0#32 && f.res == 0#15)
      (fun f => .read (regOf f.rs1)) :=
  wordsWithOp_of_row fun f hop hres => by simp [decodeFields, hop, hres]

theorem exec_read_of_valid {s : State} {rs1 : RegIdx} (h : s.valid rs1 = true) :
    exec (.read rs1) s = .next (s.succeed (s.reg rs1)) :=
  State.source_valid h fun v => .next (s.succeed v)

/-- Settles O15: the one check is of the source, and the rest is a success with the register on DOUT. -/
theorem readAsR191 : Obligations.ReadAsR191 :=
  ⟨wordsWithOp_read, fun _ _ h => fails_of_unwritten (by simp [sourcesOf]) h,
    fun rs1 s h => ⟨_, exec_read_of_valid h, succeed_frame s (s.reg rs1)⟩⟩

/-! RDSTAT (R192). -/

theorem wordsWithOp_rdstat :
    WordsWithOp 0x03#8 (fun f => f.rd == 0#3 && f.rs1 == 0#3 && f.rs2 == 0#3 && f.imm == 0#32 && f.res == 0#15)
      (fun _ => .rdstat) :=
  wordsWithOp_of_row fun f hop hres => by simp [decodeFields, hop, hres]

theorem exec_rdstat (s : State) : exec .rdstat s = .next (s.respond .ok (s.stat.setWidth 128)) := rfl

/-- A response is no part of STAT. -/
@[simp] theorem State.stat_respond (s : State) (st : Status) (d : Word) : (s.respond st d).stat = s.stat := rfl

@[simp] theorem State.respond_respond (s : State) (st st' : Status) (d d' : Word) :
    (s.respond st d).respond st' d' = s.respond st' d' := rfl

@[simp] theorem State.stat_reset : State.reset.stat = 0#32 := by decide

/-- RDSTAT gives only a response, which STAT does not show, so a second RDSTAT gives the same again. -/
theorem exec_rdstat_again (s : State) :
    exec .rdstat (s.respond .ok (s.stat.setWidth 128)) = .next (s.respond .ok (s.stat.setWidth 128)) := by
  rw [exec_rdstat, State.stat_respond, State.respond_respond]

/-- Settles O16: RDSTAT is a response with STAT and nothing more, and STAT is 0 after reset. -/
theorem rdstatAsR192 : Obligations.RdstatAsR192 := by
  refine ⟨wordsWithOp_rdstat, fun s => ⟨_, exec_rdstat s, ⟨rfl, rfl⟩, ⟨rfl, rfl⟩, ⟨rfl, rfl⟩, ⟨rfl, rfl⟩,
    ⟨rfl, rfl, rfl, rfl, rfl, rfl⟩, rfl, rfl, rfl, exec_rdstat_again s⟩, _, exec_rdstat State.reset, ?_⟩
  simp

end Sys2Proof.Machine
end

/-! ## A failed command: 60_exceptions R213 -/

section
namespace Sys2Proof.Machine

/-! The check of a whole command word, by what the decoder answers (60_exceptions R212). -/

theorem checkWord_instr {w : CmdWord} {i : Instr} (h : decode w = .instr i) (E : Word → Word → Config.CipherAnswer)
    (s : State) : checkWord E w s = check E i s := by
  simp only [checkWord, h]

theorem checkWord_illegal {w : CmdWord} {why : Illegal} (h : decode w = .illegal why)
    (E : Word → Word → Config.CipherAnswer) (s : State) : checkWord E w s = .illegal := by
  simp only [checkWord, h]

/-- The one operation that ends a failed command, whichever check gave the code: `fail` with that code. -/
theorem runCommand_of_checkWord_ne_ok {s : State} (h : checkWord Config.cipher s.cmd s ≠ .ok) :
    runCommand s = .next (s.fail (checkWord Config.cipher s.cmd s)) := by
  cases hd : decode s.cmd with
  | instr i =>
    rw [checkWord_instr hd] at h ⊢
    rw [runCommand_instr hd, exec_of_check_ne_ok h]
  | illegal why => rw [runCommand_illegal hd, checkWord_illegal hd]

/-- Settles O31: a failed command, an illegal word or an instruction with a failed check, ends in `fail`, whose frame is all
of the state but LASTERR, ERRSEEN and the response. -/
theorem failedCommandOfR213 : Obligations.FailedCommandOfR213 :=
  fun s h => ⟨_, runCommand_of_checkWord_ne_ok h, endsWith_fail s _⟩

end Sys2Proof.Machine
end

/-! ## Support: a command word and its fields

30_encoding R80, R84 and R86: taking a word apart and putting it together undo each other, and on the fields decoding and
encoding do. -/

section
namespace Sys2Proof

/-- The fields of a word stand side by side, the most significant first (R80). -/
theorem Fields.pack_eq_append (f : Fields) : f.pack = f.imm ++ f.op ++ f.rd ++ f.rs1 ++ f.rs2 ++ f.res := by
  refine BitVec.eq_of_getLsbD_eq fun j hj => ?_
  simp only [Fields.pack, BitVec.getLsbD_append, BitVec.getLsbD_or, BitVec.getLsbD_shiftLeft, BitVec.getLsbD_setWidth]
  grind

@[simp] theorem fields_pack (f : Fields) : fields f.pack = f := by
  obtain ⟨imm, op, rd, rs1, rs2, res⟩ := f
  simp only [fields, Fields.pack_eq_append, Fields.mk.injEq]
  refine ⟨?_, ?_, ?_, ?_, ?_, ?_⟩ <;> refine BitVec.eq_of_getLsbD_eq fun j hj => ?_ <;>
    simp only [BitVec.getLsbD_extractLsb', BitVec.getLsbD_append] <;> grind

@[simp] theorem pack_fields (w : CmdWord) : (fields w).pack = w := by
  refine BitVec.eq_of_getLsbD_eq fun j hj => ?_
  simp only [Fields.pack_eq_append, fields, BitVec.getLsbD_append, BitVec.getLsbD_extractLsb']
  grind

theorem fields_encode (i : Instr) : fields (encode i) = i.toFields := fields_pack i.toFields

theorem decodeFields_toFields (i : Instr) : decodeFields i.toFields = .instr i := by
  cases i <;> simp [decodeFields, Instr.toFields, opFields, need]

/-- A word with a row's OP and RES = 0 is an instruction only if it has that instruction's fields. -/
theorem toFields_of_row {f : Fields} {row : OpRow} {i : Instr} (hres : f.res = 0#15) (hrow : row ∈ opRows)
    (hop : row.op = f.op) (h : decodeFields f = .instr i) : i.toFields = f := by
  obtain ⟨imm, op, rd, rs1, rs2, res⟩ := f
  subst hres hop
  simp only [opRows, List.mem_cons, List.not_mem_nil, or_false] at hrow
  rcases hrow with rfl | rfl | rfl | rfl | rfl | rfl | rfl | rfl | rfl | rfl | rfl | rfl | rfl | rfl | rfl <;>
  · simp only [decodeFields, ne_eq, not_true_eq_false, if_false, if_true, BitVec.reduceEq, need_instr,
      Bool.and_eq_true, beq_iff_eq] at h
    obtain ⟨hzero, rfl⟩ := h
    simp [Instr.toFields, opFields, hzero]

theorem toFields_of_decodeFields {f : Fields} {i : Instr} (h : decodeFields f = .instr i) : i.toFields = f := by
  by_cases hres : f.res = 0#15
  · by_cases hlisted : ∃ row ∈ opRows, row.op = f.op
    · obtain ⟨row, hrow, hop⟩ := hlisted
      exact toFields_of_row hres hrow hop h
    · have hun : ∀ row ∈ opRows, row.op ≠ f.op := fun row hrow hop => hlisted ⟨row, hrow, hop⟩
      simp [decodeFields_of_unlisted hres hun] at h
  · simp [decodeFields_of_res_ne_zero hres] at h

/-- The decoder answers with an instruction exactly when the word has that instruction's fields. -/
theorem decode_eq_instr_iff {w : CmdWord} {i : Instr} : decode w = .instr i ↔ fields w = i.toFields := by
  refine ⟨fun h => (toFields_of_decodeFields h).symm, fun h => ?_⟩
  rw [decode, h, decodeFields_toFields]

end Sys2Proof
end

/-! ## Decoding and encoding: 30_encoding R83 to R86 -/

section
namespace Sys2Proof.Machine

/-- Settles O1: the word of an instruction has the instruction's fields. -/
theorem decodeInvertsEncode : Obligations.DecodeInvertsEncode :=
  fun i => decode_eq_instr_iff.2 (fields_encode i)

/-- Settles O2: the word has the instruction's fields, and putting its fields together gives the word. -/
theorem encodeInvertsDecode : Obligations.EncodeInvertsDecode := by
  intro w i h
  rw [encode, ← decode_eq_instr_iff.1 h, pack_fields]

/-! The match and mask columns (R83), as the rows' own fields put together. -/

/-- The ones of a row's mask: OP, RES and every field the row does not use. -/
def maskFields (row : OpRow) : Fields where
  imm := if row.usesImm then 0 else BitVec.allOnes 32
  op  := BitVec.allOnes 8
  rd  := if row.usesRd then 0 else BitVec.allOnes 3
  rs1 := if row.usesRs1 then 0 else BitVec.allOnes 3
  rs2 := if row.usesRs2 then 0 else BitVec.allOnes 3
  res := BitVec.allOnes 15

theorem matchMask_eq_map : matchMask = opRows.map fun row => ((opFields row.op).pack, (maskFields row).pack) := by
  decide

theorem fields_and (v w : CmdWord) : fields (v &&& w) =
    ⟨(fields v).imm &&& (fields w).imm, (fields v).op &&& (fields w).op, (fields v).rd &&& (fields w).rd,
      (fields v).rs1 &&& (fields w).rs1, (fields v).rs2 &&& (fields w).rs2, (fields v).res &&& (fields w).res⟩ := by
  simp only [fields, BitVec.extractLsb'_and]

theorem eq_pack_iff {w : CmdWord} {f : Fields} : w = f.pack ↔ fields w = f :=
  ⟨fun h => by rw [h, fields_pack], fun h => by rw [← h, pack_fields]⟩

/-- A field masked by a row is 0 exactly when the row uses it or it is 0. -/
theorem and_maskField_eq_zero {n : Nat} (x : BitVec n) (uses : Bool) :
    x &&& (if uses then 0 else BitVec.allOnes n) = 0#n ↔ (uses || x == 0#n) = true := by
  cases uses <;> simp

/-- The masked bits of a word are a row's match exactly when its fields fit the row and RES is 0. -/
theorem masked_eq_match_iff (w : CmdWord) (row : OpRow) :
    w &&& (maskFields row).pack = (opFields row.op).pack ↔ row.fits (fields w) = true ∧ (fields w).res = 0#15 := by
  rw [eq_pack_iff, fields_and, fields_pack]
  simp only [maskFields, opFields, Fields.mk.injEq, and_maskField_eq_zero, BitVec.and_allOnes, OpRow.fits, Bool.and_eq_true,
    beq_iff_eq]
  grind

/-- The row of an instruction, counted by `rowOf`, is the one its fields fit. -/
theorem exists_row_of_instr (i : Instr) : ∃ row, opRows[rowOf i]? = some row ∧ row.fits i.toFields = true := by
  cases i <;> exact ⟨_, rfl, rfl⟩

theorem res_toFields (i : Instr) : i.toFields.res = 0#15 := by cases i <;> rfl

theorem op_eq_of_fits {row : OpRow} {f : Fields} (h : row.fits f = true) : row.op = f.op := by
  simp only [OpRow.fits, Bool.and_eq_true, beq_iff_eq] at h
  grind

/-- No two rows have the same OP. -/
theorem opRows_op_inj {j k : Nat} {a b : OpRow} (hj : opRows[j]? = some a) (hk : opRows[k]? = some b)
    (h : a.op = b.op) : j = k := by
  have hnodup : (opRows.map OpRow.op).Nodup := by decide
  have hlt : j < (opRows.map OpRow.op).length := by simpa using (List.getElem?_eq_some_iff.1 hj).1
  exact (List.getElem?_inj hlt hnodup).1 (by simp [hj, hk, h])

/-- Fields that fit row k, with RES = 0, are those of an instruction of row k. -/
theorem decode_of_fits {w : CmdWord} {k : Nat} {row : OpRow} (hk : opRows[k]? = some row)
    (hfits : row.fits (fields w) = true) (hres : (fields w).res = 0#15) : ∃ i, decode w = .instr i ∧ rowOf i = k := by
  cases hd : decode w with
  | illegal why =>
    have hbad := (decodeFields_illegal_of_row hres (List.mem_of_getElem? hk) (op_eq_of_fits hfits)).1 ⟨why, hd⟩
    simp [hfits] at hbad
  | instr i =>
    obtain ⟨row', hrow', hfits'⟩ := exists_row_of_instr i
    rw [← decode_eq_instr_iff.1 hd] at hfits'
    exact ⟨i, rfl, opRows_op_inj hrow' hk ((op_eq_of_fits hfits').trans (op_eq_of_fits hfits).symm)⟩

theorem getElem?_matchMask {k : Nat} {p : CmdWord × CmdWord} :
    matchMask[k]? = some p ↔ ∃ row, opRows[k]? = some row ∧ ((opFields row.op).pack, (maskFields row).pack) = p := by
  simp [matchMask_eq_map]

/-- Settles O3: the masked bits are the match exactly when the fields fit the row, which only an instruction of that row has;
and a word has one OP. -/
theorem decodeFollowsMatchAndMask : Obligations.DecodeFollowsMatchAndMask := by
  refine ⟨fun w k p hp => ?_, fun w j k a b ha hb hwa hwb => ?_⟩
  · obtain ⟨row, hrow, rfl⟩ := getElem?_matchMask.1 hp
    rw [masked_eq_match_iff]
    refine ⟨fun ⟨hfits, hres⟩ => decode_of_fits hrow hfits hres, ?_⟩
    rintro ⟨i, hd, rfl⟩
    obtain ⟨row', hrow', hfits⟩ := exists_row_of_instr i
    cases hrow.symm.trans hrow'
    rw [decode_eq_instr_iff.1 hd]
    exact ⟨hfits, res_toFields i⟩
  · obtain ⟨row, hrow, rfl⟩ := getElem?_matchMask.1 ha
    obtain ⟨row', hrow', rfl⟩ := getElem?_matchMask.1 hb
    obtain ⟨hfits, -⟩ := (masked_eq_match_iff w row).1 hwa
    obtain ⟨hfits', -⟩ := (masked_eq_match_iff w row').1 hwb
    exact opRows_op_inj hrow hrow' ((op_eq_of_fits hfits).trans (op_eq_of_fits hfits').symm)

/-- Settles O5: each word decodes to its instruction by computation, and so is its encoding. -/
theorem workedEncodingsOfR89 : Obligations.WorkedEncodingsOfR89 := by
  intro p hp
  have hd : decode p.2 = .instr p.1 := by
    revert p; decide
  exact ⟨hd, encodeInvertsDecode p.2 p.1 hd⟩

end Sys2Proof.Machine
end

/-! ## Performing a command: 60_exceptions R213 to R215 -/

section
namespace Sys2Proof.Machine

/-- Settles O29: performing the sampled word is Step on the block as it was, and a command leaves the host's side. -/
theorem commandIsStepOfR215 : Obligations.CommandIsStepOfR215 := by
  intro s x
  obtain ⟨t, hrun⟩ := runCommand_completes (s.accept x)
  obtain ⟨hblock, hrsp⟩ := runCommand_eq_specStep (u := s.accept x) (.refl s) hrun
  rw [State.accept_cmd, State.accept_din] at hblock hrsp
  exact ⟨t, hrun, ⟨hblock, hrsp⟩, runCommand_hostSideKept hrun⟩

/-- Settles O28: an instruction always has a next state, and each way to it is through a response. -/
theorem everyInstructionCompletes : Obligations.EveryInstructionCompletes := by
  intro i s
  obtain ⟨t, hexec⟩ := exec_completes i s
  obtain ⟨st, -, -, rfl⟩ | ⟨-, -, rfl⟩ | ⟨-, -, rfl⟩ := exec_cases hexec
  · exact ⟨_, _, hexec, rfl⟩
  · exact ⟨_, _, hexec, rfl⟩
  · exact ⟨_, _, hexec, rfl⟩

/-- Only READ and RDSTAT put anything on DOUT. -/
theorem perform_dout {i : Instr} (hread : ∀ a, i ≠ .read a) (hrdstat : i ≠ .rdstat)
    (E : Word → Word → Config.CipherAnswer) (s : State) : (perform E i s).2 = 0#128 := by
  cases i with
  | read a => exact absurd rfl (hread a)
  | rdstat => exact absurd rfl hrdstat
  | ctrx rd a => simp only [perform]; cases E s.key s.ctr <;> rfl
  | _ => rfl

/-- Settles O32: a success is RDSTAT's response, or an effect completed by `succeed`. -/
theorem successfulCommandAnswersOk : Obligations.SuccessfulCommandAnswersOk := by
  intro s i hd hok
  rw [runCommand_instr hd]
  by_cases hi : i = .rdstat
  · subst hi
    exact ⟨_, _, exec_rdstat s, rfl, rfl, fun _ hne => absurd rfl hne, fun hne => absurd rfl hne⟩
  · exact ⟨_, _, exec_of_check_ok hi hok, rfl, perform_errSeen Config.cipher i s,
      fun hread hrdstat => perform_dout hread hrdstat Config.cipher s, fun _ => rfl⟩

end Sys2Proof.Machine
end

/-! ## Who changes a register: 10_state R22, R27 to R29 -/

section
namespace Sys2Proof.Machine

/-! The effect of an instruction, register by register. -/

theorem perform_reg_or_dest (E : Word → Word → Config.CipherAnswer) (i : Instr) (s : State) (j : RegIdx) :
    ((perform E i s).1.reg j = s.reg j ∧ (perform E i s).1.valid j = s.valid j) ∨ destOf i = some j := by
  have hwrite (rd : RegIdx) (v : Word) :
      ((s.setReg rd v).reg j = s.reg j ∧ (s.setReg rd v).valid j = s.valid j) ∨ some rd = some j := by
    by_cases h : j = rd
    · exact .inr (congrArg some h.symm)
    · exact .inl ⟨State.reg_setReg_other s h v, State.valid_setReg_other s h v⟩
  cases i with
  | nop | read | rdstat | setc | setkey | keygen | setctr => exact .inl ⟨rfl, rfl⟩
  | load rd | xor rd | add rd | adds rd | rotl rd | scram rd | getctr rd => exact hwrite rd _
  | ctrx rd a =>
    cases hE : E s.key s.ctr with
    | failure => simp [perform, hE]
    | block ks => simp only [perform, hE]; exact hwrite rd _

theorem perform_const_or_setc (E : Word → Word → Config.CipherAnswer) (i : Instr) (s : State) :
    ConstKept s (perform E i s).1 ∨ ∃ a, i = .setc a := by
  cases i with
  | setc a => exact .inr ⟨a, rfl⟩
  | _ => exact .inl (constKept_perform E rfl s)

theorem perform_key_or_writer (E : Word → Word → Config.CipherAnswer) (i : Instr) (s : State) :
    KeyKept s (perform E i s).1 ∨ (∃ a, i = .setkey a) ∨ ∃ a b, i = .keygen a b := by
  cases i with
  | setkey a => exact .inr (.inl ⟨a, rfl⟩)
  | keygen a b => exact .inr (.inr ⟨a, b, rfl⟩)
  | ctrx rd a => cases hE : E s.key s.ctr <;> simp [perform, KeyKept, hE]
  | _ => exact .inl ⟨rfl, rfl⟩

theorem perform_ctr_or_writer (E : Word → Word → Config.CipherAnswer) (i : Instr) (s : State) :
    CtrKept s (perform E i s).1 ∨ (∃ a, i = .setctr a) ∨
      ∃ rd a, i = .ctrx rd a ∧ (perform E i s).1.ctr = s.ctr + 1#128 ∧ (perform E i s).1.tv = s.tv := by
  cases i with
  | setctr a => exact .inr (.inl ⟨a, rfl⟩)
  | ctrx rd a => cases hE : E s.key s.ctr <;> simp [perform, CtrKept, hE]
  | _ => exact .inl ⟨rfl, rfl⟩

/-- Every completion is of the state as it was or of the instruction's effect, and adds LASTERR, ERRSEEN and a response. -/
theorem exec_next_eq {i : Instr} {s t : State} (h : exec i s = .next t) :
    ∃ u e b a, (u = s ∨ u = (perform Config.cipher i s).1) ∧ t = { u with lastErr := e, errSeen := b, rsp := a } := by
  obtain ⟨st, -, -, rfl⟩ | ⟨-, -, rfl⟩ | ⟨-, -, rfl⟩ := exec_cases h
  · exact ⟨s, _, _, _, .inl rfl, rfl⟩
  · exact ⟨s, _, _, _, .inl rfl, rfl⟩
  · exact ⟨_, _, _, _, .inr rfl, rfl⟩

/-- Settles O37: an instruction leaves the registers as they were or has its effect, and each effect keeps all registers but
its own. -/
theorem writersOfEachRegister : Obligations.WritersOfEachRegister := by
  intro i s t h
  obtain ⟨u, e, b, a, rfl | rfl, rfl⟩ := exec_next_eq h
  · simp [State.reg, State.valid, HostSideKept]
  · refine ⟨fun j hne => ?_, fun hne => ?_, fun hne => ?_, fun hne => ?_, hostSideKept_perform Config.cipher i s⟩
    · obtain ⟨hreg, hvalid⟩ | hdest := perform_reg_or_dest Config.cipher i s j
      · exact absurd hne (by simpa [State.reg, State.valid] using ⟨hreg, hvalid⟩)
      · exact hdest
    · exact (perform_const_or_setc Config.cipher i s).resolve_left (not_and_or.2 hne)
    · exact (perform_key_or_writer Config.cipher i s).resolve_left (not_and_or.2 hne)
    · exact (perform_ctr_or_writer Config.cipher i s).resolve_left (not_and_or.2 hne)

/-! Loading (R27 to R29). -/

theorem perform_keeps_kv (E : Word → Word → Config.CipherAnswer) (i : Instr) {s : State} (h : s.kv = true) :
    (perform E i s).1.kv = true := by
  obtain ⟨-, hkv⟩ | ⟨a, rfl⟩ | ⟨a, b, rfl⟩ := perform_key_or_writer E i s
  · exact hkv.trans h
  · rfl
  · rfl

theorem perform_keeps_tv (E : Word → Word → Config.CipherAnswer) (i : Instr) {s : State} (h : s.tv = true) :
    (perform E i s).1.tv = true := by
  obtain ⟨-, htv⟩ | ⟨a, rfl⟩ | ⟨rd, a, -, -, htv⟩ := perform_ctr_or_writer E i s
  · exact htv.trans h
  · rfl
  · exact htv.trans h

theorem runCommand_keeps_kv {s t : State} (h : runCommand s = .next t) (hs : s.kv = true) : t.kv = true := by
  obtain ⟨st, -, -, rfl⟩ | ⟨-, rfl⟩ | ⟨i, -, -, -, rfl⟩ := runCommand_cases h
  · exact hs
  · exact hs
  · exact perform_keeps_kv Config.cipher i hs

theorem runCommand_keeps_tv {s t : State} (h : runCommand s = .next t) (hs : s.tv = true) : t.tv = true := by
  obtain ⟨st, -, -, rfl⟩ | ⟨-, rfl⟩ | ⟨i, -, -, -, rfl⟩ := runCommand_cases h
  · exact hs
  · exact hs
  · exact perform_keeps_tv Config.cipher i hs

theorem SameBlock.kv {s t : State} (h : SameBlock s t) : s.kv = t.kv := by
  obtain ⟨-, -, -, -, -, hkv, -⟩ := h
  exact hkv

theorem SameBlock.tv {s t : State} (h : SameBlock s t) : s.tv = t.tv := by
  obtain ⟨-, -, -, -, -, -, -, htv, -⟩ := h
  exact htv

/-- Settles O36: no effect of an instruction clears KV or TV or writes a loaded C, and a step without reset is at most one
command. -/
theorem onlyResetUnloads : Obligations.OnlyResetUnloads := by
  refine fun s t hr h => ⟨fun hcv => ?_, fun hkv => ?_, fun htv => ?_⟩
  · obtain ⟨hc, hkept⟩ := step_constKept hcv hr h
    exact ⟨hkept.trans hcv, hc⟩
  · exact step_preserves (P := fun u => u.kv = true) (fun _ _ same hP => same.kv ▸ hP)
      (fun _ _ run hP => runCommand_keeps_kv run hP) hr h hkv
  · exact step_preserves (P := fun u => u.tv = true) (fun _ _ same hP => same.tv ▸ hP)
      (fun _ _ run hP => runCommand_keeps_tv run hP) hr h htv

end Sys2Proof.Machine
end

/-! ## A command given twice: 20_memory R58 -/

section
namespace Sys2Proof.Machine

theorem markValid_markValid (rv : BitVec 8) (i : RegIdx) : markValid (markValid rv i) i = markValid rv i := by
  rw [markValid, markValid, BitVec.or_assoc, BitVec.or_self]

/-- A register write given twice is the register write. -/
theorem State.setReg_setReg_same (s : State) (i : RegIdx) (v w : Word) : (s.setReg i v).setReg i w = s.setReg i w := by
  simp only [State.setReg, markValid_markValid, Vector.set_set]

theorem setReg_succeed_again (s : State) (rd : RegIdx) (v d : Word) :
    (((s.setReg rd v).succeed d).setReg rd v).succeed d = (s.setReg rd v).succeed d := by
  change ((s.setReg rd v).setReg rd v).succeed d = _
  rw [State.setReg_setReg_same]

/-- The checks of R212 all pass exactly when the operands an instruction uses are there. -/
theorem check_eq_ok_iff {E : Word → Word → Config.CipherAnswer} {i : Instr} {s : State} :
    check E i s = .ok ↔ (∀ a ∈ sourcesOf i, s.valid a = true) ∧ (usesConst i = true → s.cv = true) ∧
      (isSetc i = true → s.cv = false) ∧ (isCtrx i = true → s.kv = true) ∧
      (isCtrx i = true ∨ isGetctr i = true → s.tv = true) ∧ (isCtrx i = true → E s.key s.ctr ≠ .failure) := by
  simp [check, ite_eq_iff]

/-- The effect of an instruction that is no CTRX and no SETC leaves its own checks passed. -/
theorem check_perform {i : Instr} {s : State} (hctrx : isCtrx i = false) (hsetc : isSetc i = false)
    (h : check Config.cipher i s = .ok) : check Config.cipher i (perform Config.cipher i s).1 = .ok := by
  obtain ⟨hsources, hcv, -, -, htv, -⟩ := check_eq_ok_iff.1 h
  obtain ⟨-, hcvKept⟩ := constKept_perform Config.cipher hsetc s
  refine check_eq_ok_iff.2 ⟨fun a ha => ?_, fun hi => ?_, by simp [hsetc], by simp [hctrx], fun hi => ?_, by simp [hctrx]⟩
  · rw [valid_perform h, hsources a ha, Bool.or_true]
  · rw [hcvKept, hcv hi]
  · exact perform_keeps_tv Config.cipher i (htv hi)

/-- The effect on a state that already had it is that state: the destination is no source, so the result is the same. -/
theorem perform_again {i : Instr} {s t : State} (hdest : ∀ rd, destOf i = some rd → rd ∉ sourcesOf i)
    (hctrx : isCtrx i = false) (hrdstat : i ≠ .rdstat)
    (ht : t = (perform Config.cipher i s).1.succeed (perform Config.cipher i s).2) :
    (perform Config.cipher i t).1.succeed (perform Config.cipher i t).2 = t := by
  subst ht
  cases i with
  | rdstat => exact absurd rfl hrdstat
  | ctrx rd a => cases hctrx
  | nop | read | setc | setkey | keygen | setctr => rfl
  | load rd | getctr rd => exact setReg_succeed_again s rd _ _
  | xor rd | add rd | adds rd | rotl rd | scram rd =>
    have hne := hdest rd rfl
    simp only [sourcesOf, List.mem_cons, List.not_mem_nil, or_false, not_or] at hne
    simp [perform, State.reg_setReg, hne, Ne.symm, setReg_succeed_again]

/-- Settles O38: the effect leaves the checks passed and, the destination being no source, its own result unchanged; and a
loaded C locks out a second SETC. -/
theorem repeatedCommand : Obligations.RepeatedCommand := by
  refine ⟨fun i s t hdest hctrx hsetc hok h => ?_, fun a s t hok h => ?_⟩
  · by_cases hi : i = .rdstat
    · subst hi
      cases h
      exact exec_rdstat_again s
    · rw [exec_of_check_ok hi hok] at h
      cases h
      have hagain : check Config.cipher i ((perform Config.cipher i s).1.succeed (perform Config.cipher i s).2) = .ok :=
        check_perform hctrx hsetc hok
      rw [exec_of_check_ok hi hagain, perform_again hdest hctrx hi rfl]
  · obtain ⟨hsources, -, hcv, -⟩ := check_eq_ok_iff.1 hok
    have hvalid : s.valid a = true := hsources a (by simp [sourcesOf])
    rw [exec_setc_load hvalid (hcv rfl)] at h
    cases h
    exact fails_of_exec_eq (exec_setc_locked hvalid rfl)

end Sys2Proof.Machine
end

/-! ## KEYGEN and GETCTR: 42_ctr R163 and R167 -/

section
namespace Sys2Proof.Machine

/-! KEYGEN (R163). -/

theorem wordsWithOp_keygen :
    WordsWithOp 0x31#8 (fun f => f.rd == 0#3 && f.imm == 0#32 && f.res == 0#15)
      (fun f => .keygen (regOf f.rs1) (regOf f.rs2)) :=
  wordsWithOp_of_row fun f hop hres => by simp [decodeFields, hop, hres]

/-- KEYGEN with both sources written: the check of C, then the write of KEY. -/
theorem exec_keygen_of_valid {s : State} {rs1 rs2 : RegIdx} (h1 : s.valid rs1 = true) (h2 : s.valid rs2 = true) :
    exec (.keygen rs1 rs2) s =
      s.constant fun c => .next ((s.setKey (scramble (s.reg rs1) (s.reg rs2) c)).succeed 0#128) :=
  State.source_source_valid h1 h2 fun kx ky => s.constant fun c => .next ((s.setKey (scramble kx ky c)).succeed 0#128)

theorem exec_keygen_unset {s : State} {rs1 rs2 : RegIdx} (h1 : s.valid rs1 = true) (h2 : s.valid rs2 = true)
    (hcv : s.cv = false) : exec (.keygen rs1 rs2) s = .next (s.fail .cUnset) :=
  (exec_keygen_of_valid h1 h2).trans (State.constant_unset hcv _)

theorem exec_keygen_loaded {s : State} {rs1 rs2 : RegIdx} (h1 : s.valid rs1 = true) (h2 : s.valid rs2 = true)
    (hcv : s.cv = true) :
    exec (.keygen rs1 rs2) s = .next ((s.setKey (scramble (s.reg rs1) (s.reg rs2) s.c)).succeed 0#128) :=
  (exec_keygen_of_valid h1 h2).trans (State.constant_loaded hcv _)

/-- SCRAM into rt and SETKEY from it: rt is then a written register, and holds the scrambled value. -/
theorem execAll_scram_setkey {s : State} {rs1 rs2 : RegIdx} (h1 : s.valid rs1 = true) (h2 : s.valid rs2 = true)
    (hcv : s.cv = true) (rt : RegIdx) :
    ∃ u, execAll [.scram rt rs1 rs2, .setkey rt] s = .next u ∧ u.key = scramble (s.reg rs1) (s.reg rs2) s.c ∧
      u.kv = true := by
  have hsetkey := exec_setkey_of_valid (rs1 := rt)
    (s := (s.setReg rt (scramble (s.reg rs1) (s.reg rs2) s.c)).succeed 0#128) (by simp)
  refine ⟨_, (execAll_cons_next (exec_scram_loaded h1 h2 hcv rt)).trans (execAll_cons_next hsetkey), ?_, rfl⟩
  simp

/-- Settles O24: the sources are checked before C, the effect is the one write of KEY, and it is the value SCRAM writes. -/
theorem keygenAsR163 : Obligations.KeygenAsR163 := by
  refine ⟨wordsWithOp_keygen, fun _ _ _ h => fails_of_unwritten_pair rfl h,
    fun _ _ _ h1 h2 hcv => fails_of_exec_eq (exec_keygen_unset h1 h2 hcv), fun rs1 rs2 s h1 h2 hcv => ?_,
    fun rt rs1 rs2 s t h1 h2 hcv h => ?_⟩
  · exact ⟨_, exec_keygen_loaded h1 h2 hcv, scramble_eq_stages _ _ _, rfl, ⟨rfl, rfl⟩, ⟨rfl, rfl⟩, ⟨rfl, rfl⟩,
      hostSideKept_succeed _ 0#128, endsOk_succeed _ 0#128⟩
  · rw [exec_keygen_loaded h1 h2 hcv] at h
    cases h
    exact execAll_scram_setkey h1 h2 hcv rt

/-! GETCTR (R167). -/

theorem wordsWithOp_getctr :
    WordsWithOp 0x33#8 (fun f => f.rs1 == 0#3 && f.rs2 == 0#3 && f.imm == 0#32 && f.res == 0#15)
      (fun f => .getctr (regOf f.rd)) :=
  wordsWithOp_of_row fun f hop hres => by simp [decodeFields, hop, hres]

theorem exec_getctr_unset {s : State} (htv : s.tv = false) (rd : RegIdx) :
    exec (.getctr rd) s = .next (s.fail .ctrUnset) :=
  State.counter_unset htv fun v => .next ((s.setReg rd v).succeed 0#128)

theorem exec_getctr_loaded {s : State} (htv : s.tv = true) (rd : RegIdx) :
    exec (.getctr rd) s = .next ((s.setReg rd s.ctr).succeed 0#128) :=
  State.counter_loaded htv fun v => .next ((s.setReg rd v).succeed 0#128)

/-! CTRX again and again (R170). -/

theorem okCount_cons_ok {i : Instr} {s t : State} (h : exec i s = .next t) (hrsp : t.rsp.map Response.status = some 0#4)
    (is : List Instr) : okCount (i :: is) s = 1 + okCount is t := by
  simp only [okCount, h, hrsp, if_true]

theorem okCount_cons_error {i : Instr} {s t : State} (h : exec i s = .next t)
    (hrsp : t.rsp.map Response.status ≠ some 0#4) (is : List Instr) : okCount (i :: is) s = okCount is t := by
  simp only [okCount, h, hrsp, if_false, Nat.zero_add]

theorem execAll_replicate_of_fixed {i : Instr} {s : State} (h : exec i s = .next s) (n : Nat) :
    execAll (List.replicate n i) s = .next s := by
  induction n with
  | zero => rfl
  | succ n ih => exact (execAll_cons_next h).trans ih

theorem okCount_replicate_of_fixed {i : Instr} {s : State} (h : exec i s = .next s)
    (hrsp : s.rsp.map Response.status ≠ some 0#4) (n : Nat) : okCount (List.replicate n i) s = 0 := by
  induction n with
  | zero => rfl
  | succ n ih => rw [List.replicate_succ, okCount_cons_error h hrsp, ih]

/-- Where the cipher fails, CTRX fails again: the request is the same one. -/
theorem exec_ctrx_failed {s : State} {ra rb : RegIdx} (hv : s.valid rb = true) (hkv : s.kv = true) (htv : s.tv = true)
    (hE : Config.cipher s.key s.ctr = .failure) :
    exec (.ctrx ra rb) (s.fail .primFail) = .next (s.fail .primFail) :=
  ctrxWith_failure (s := s.fail .primFail) hv hkv htv hE ra

/-- After n CTRX commands CTR is as many further on as answered OK, which are all n if the last one did. -/
theorem execAll_replicate_ctrx (n : Nat) {ra rb : RegIdx} {s : State} (hv : s.valid rb = true) (hkv : s.kv = true)
    (htv : s.tv = true) :
    ∃ t, execAll (List.replicate n (.ctrx ra rb)) s = .next t ∧ t.tv = true ∧
      t.ctr = s.ctr + BitVec.ofNat 128 (okCount (List.replicate n (.ctrx ra rb)) s) ∧
      (t.lastErr = 0#4 → okCount (List.replicate n (.ctrx ra rb)) s = n) := by
  induction n generalizing s with
  | zero => exact ⟨s, rfl, htv, by simp [okCount], fun _ => rfl⟩
  | succ n ih =>
    cases hE : Config.cipher s.key s.ctr with
    | failure =>
      have hexec : exec (.ctrx ra rb) s = .next (s.fail .primFail) := ctrxWith_failure hv hkv htv hE ra
      have hagain := exec_ctrx_failed (ra := ra) hv hkv htv hE
      have hcount : okCount (List.replicate (n + 1) (.ctrx ra rb)) s = 0 := by
        have hrsp : (s.fail .primFail).rsp.map Response.status ≠ some 0#4 := by simp [Status.code_eq_zero]
        rw [List.replicate_succ, okCount_cons_error hexec hrsp, okCount_replicate_of_fixed hagain hrsp]
      refine ⟨s.fail .primFail, (execAll_cons_next hexec).trans (execAll_replicate_of_fixed hagain n), htv, ?_, ?_⟩
      · simp [hcount]
      · intro hlast
        simp [Status.code_eq_zero] at hlast
    | block ks =>
      have hexec : exec (.ctrx ra rb) s = .next ((s.setReg ra (s.reg rb ^^^ ks)).advanceCtr.succeed 0#128) :=
        ctrxWith_block hv hkv htv hE ra
      obtain ⟨t, hrun, httv, hctr, hall⟩ := ih (s := (s.setReg ra (s.reg rb ^^^ ks)).advanceCtr.succeed 0#128)
        (by simp [State.valid_setReg, hv]) hkv htv
      refine ⟨t, (execAll_cons_next hexec).trans hrun, httv, ?_, fun hlast => ?_⟩
      · rw [hctr, List.replicate_succ, okCount_cons_ok hexec rfl, BitVec.ofNat_add, ← BitVec.add_assoc]
        rfl
      · rw [List.replicate_succ, okCount_cons_ok hexec rfl, hall hlast, Nat.add_comm]

/-- Settles O26: the one check is of CTR, the effect is the one register write, and the CTRX commands before it count in CTR
the answers OK. -/
theorem getctrAsR167 : Obligations.GetctrAsR167 := by
  refine ⟨wordsWithOp_getctr, fun rd _ htv => fails_of_exec_eq (exec_getctr_unset htv rd),
    fun rd s htv => ⟨_, exec_getctr_loaded htv rd, writesOnlyReg_setReg s rd s.ctr⟩, fun n ra rb rd s hv hkv htv => ?_⟩
  obtain ⟨t, hrun, httv, hctr, hall⟩ := execAll_replicate_ctrx n (ra := ra) hv hkv htv
  exact ⟨t, _, hrun, exec_getctr_loaded httv rd, (State.reg_setReg_same t rd t.ctr).trans hctr, hall⟩

end Sys2Proof.Machine
end

/-! ## SCRAM as four instructions: 41_scrambler R143 and R146 -/

section
namespace Sys2Proof.Machine

/-- A register write leaves the value in its register, which is then a written one, and the other registers alone. -/
theorem exists_write {i : Instr} {s : State} {rd : RegIdx} {v : Word}
    (h : exec i s = .next ((s.setReg rd v).succeed 0#128)) :
    ∃ t, exec i s = .next t ∧ t.reg rd = v ∧ t.valid rd = true ∧ OtherRegsKept rd s t := by
  obtain ⟨hreg, hvalid, hother, -⟩ := writesOnlyReg_setReg s rd v
  exact ⟨_, h, hreg, hvalid, hother⟩

theorem otherRegsKept_trans {rd : RegIdx} {s t u : State} (h : OtherRegsKept rd s t) (h' : OtherRegsKept rd t u) :
    OtherRegsKept rd s u := by
  intro i hi
  obtain ⟨hreg, hvalid⟩ := h i hi
  obtain ⟨hreg', hvalid'⟩ := h' i hi
  exact ⟨hreg'.trans hreg, hvalid'.trans hvalid⟩

/-- The four instructions with their scratch register: each writes rt only, from rt as the one before has left it. -/
theorem execAll_scram_stages {rs1 rs2 rt rc : RegIdx} {s : State} (h2 : rt ≠ rs2) (hc : rt ≠ rc)
    (hv1 : s.valid rs1 = true) (hv2 : s.valid rs2 = true) (hvc : s.valid rc = true) :
    ∃ u, execAll [.rotl rt rs1 2#32, .xor rt rt rs2, .add rt rt rc, .rotl rt rt 87#32] s = .next u ∧
      u.reg rt = scramble (s.reg rs1) (s.reg rs2) (s.reg rc) ∧ OtherRegsKept rt s u := by
  obtain ⟨t1, hexec1, hreg1, hvalid1, hkept1⟩ := exists_write (exec_rotl_of_valid hv1 rt 2#32)
  obtain ⟨hy, hvy⟩ := hkept1 rs2 h2.symm
  obtain ⟨t2, hexec2, hreg2, hvalid2, hkept2⟩ := exists_write (exec_xor_of_valid hvalid1 (hvy.trans hv2) rt)
  have hkept12 := otherRegsKept_trans hkept1 hkept2
  obtain ⟨hconst, hvconst⟩ := hkept12 rc hc.symm
  obtain ⟨t3, hexec3, hreg3, hvalid3, hkept3⟩ := exists_write (exec_add_of_valid hvalid2 (hvconst.trans hvc) rt)
  obtain ⟨u, hexec4, hreg4, -, hkept4⟩ := exists_write (exec_rotl_of_valid hvalid3 rt 87#32)
  refine ⟨u, ?_, ?_, otherRegsKept_trans hkept12 (otherRegsKept_trans hkept3 hkept4)⟩
  · rw [execAll_cons_next hexec1, execAll_cons_next hexec2, execAll_cons_next hexec3, execAll_cons_next hexec4, execAll]
  · rw [hreg4, hreg3, hreg2, hreg1, hy, hconst, scramble_eq_stages]
    rfl

/-- Settles O46: each stage of the scrambler is one of the four instructions. -/
theorem scramIsFourInstructions : Obligations.ScramIsFourInstructions := by
  intro rd rs1 rs2 rt rc s t _ h2 hc hv1 hv2 hvc hcv hregc h
  rw [exec_scram_loaded hv1 hv2 hcv] at h
  cases h
  obtain ⟨u, hrun, hreg, hother⟩ := execAll_scram_stages h2 hc hv1 hv2 hvc
  exact ⟨u, hrun, by simp [hreg, hregc], hother⟩

/-- Settles O45: the stages computed one after another; the scrambler is the last of them. -/
theorem scramblerStagesOfR146 : Obligations.ScramblerStagesOfR146 := by
  refine ⟨?_, ?_, ?_, ?_, ?_⟩ <;> decide

end Sys2Proof.Machine
end

/-! ## What cannot be read back: 10_state R27 and R28, 20_memory R59 -/

section
namespace Sys2Proof.Machine

/-- Two states on which an instruction's check is the same, and every completion of which is the same but for what `f`
removes, cannot be told apart by the instruction but for that. -/
theorem mapNext_exec_congr {f : State → State} {i : Instr} {s s' : State}
    (hcheck : check Config.cipher i s' = check Config.cipher i s) (hfail : ∀ st, f (s'.fail st) = f (s.fail st))
    (hstat : f (s'.respond .ok (s'.stat.setWidth 128)) = f (s.respond .ok (s.stat.setWidth 128)))
    (hok : f ((perform Config.cipher i s').1.succeed (perform Config.cipher i s').2) =
      f ((perform Config.cipher i s).1.succeed (perform Config.cipher i s).2)) :
    mapNext f (exec i s') = mapNext f (exec i s) := by
  by_cases h : check Config.cipher i s = .ok
  · by_cases hi : i = .rdstat
    · subst hi
      exact congrArg Host.Outcome.next hstat
    · rw [exec_of_check_ok hi h, exec_of_check_ok hi (hcheck.trans h)]
      exact congrArg Host.Outcome.next hok
  · rw [exec_of_check_ne_ok h, exec_of_check_ne_ok (hcheck ▸ h), hcheck]
    exact congrArg Host.Outcome.next (hfail _)

/-! KEY (R28). -/

theorem check_withKey {i : Instr} (hi : isCtrx i = false) (E : Word → Word → Config.CipherAnswer) (s : State) (k : Word) :
    check E i { s with key := k } = check E i s := by
  simp only [check, hi, Bool.false_and]
  rfl

/-- Outside CTRX the effect does not read KEY. -/
theorem succeed_perform_withKey {i : Instr} (hi : isCtrx i = false) (E : Word → Word → Config.CipherAnswer) (s : State)
    (k : Word) :
    { (perform E i { s with key := k }).1.succeed (perform E i { s with key := k }).2 with key := 0#128 } =
      { (perform E i s).1.succeed (perform E i s).2 with key := 0#128 } := by
  cases i with
  | ctrx rd a => cases hi
  | _ => rfl

theorem applyKeystream_withKey (s : State) (k : Word) (rd : RegIdx) (v : Word) (answer : Config.CipherAnswer) :
    mapNext (fun t => { t with key := 0#128 }) (({ s with key := k } : State).applyKeystream rd v answer) =
      mapNext (fun t => { t with key := 0#128 }) (s.applyKeystream rd v answer) := by
  cases answer <;> rfl

/-- CTRX reads KEY only to ask the cipher. -/
theorem ctrxWith_withKey {E : Word → Word → Config.CipherAnswer} {s : State} {k : Word} (hE : E k s.ctr = E s.key s.ctr)
    (rd rs1 : RegIdx) :
    mapNext (fun t => { t with key := 0#128 }) (ctrxWith E rd rs1 { s with key := k }) =
      mapNext (fun t => { t with key := 0#128 }) (ctrxWith E rd rs1 s) := by
  simp only [ctrxWith, State.source, State.cipherKey, State.counter, State.require, mapNext_ite, hE,
    applyKeystream_withKey]
  rfl

/-- Settles O51: outside CTRX neither a check nor an effect reads KEY, and CTRX reads it only to ask the cipher. -/
theorem keyCannotBeRead : Obligations.KeyCannotBeRead :=
  ⟨fun _ s k hi => mapNext_exec_congr (check_withKey hi _ s k) (fun _ => rfl) rfl (succeed_perform_withKey hi _ s k),
    fun _ rd rs1 _ _ hE => ctrxWith_withKey hE rd rs1⟩

/-! C (R27). -/

theorem check_withConst (i : Instr) (E : Word → Word → Config.CipherAnswer) (s : State) (k : Word) :
    check E i { s with c := k } = check E i s := rfl

/-- Outside SCRAM and KEYGEN the effect does not read C. -/
theorem succeed_perform_withConst {i : Instr} (hi : usesConst i = false) (E : Word → Word → Config.CipherAnswer) (s : State)
    (k : Word) :
    { (perform E i { s with c := k }).1.succeed (perform E i { s with c := k }).2 with c := 0#128 } =
      { (perform E i s).1.succeed (perform E i s).2 with c := 0#128 } := by
  cases i with
  | scram | keygen => cases hi
  | ctrx rd a =>
    cases hE : E s.key s.ctr with
    | failure => simp only [perform, hE]; rfl
    | block ks => simp only [perform, hE]; rfl
  | _ => rfl

/-- Settles O52: no check reads C, and outside SCRAM and KEYGEN no effect does. -/
theorem constantCannotBeRead : Obligations.ConstantCannotBeRead :=
  fun i s k hi => mapNext_exec_congr (check_withConst i _ s k) (fun _ => rfl) rfl (succeed_perform_withConst hi _ s k)

end Sys2Proof.Machine
end

/-! ## The status register: 10_state R32 -/

section
namespace Sys2Proof.Machine

/-- STAT bit by bit. -/
theorem State.getLsbD_stat (s : State) (j : Nat) :
    s.stat.getLsbD j =
      if j < 8 then s.rv.getLsbD j
      else if j = 8 then s.cv
      else if j = 9 then s.kv
      else if j = 10 then s.tv
      else if j < 16 then false
      else if j < 20 then s.lastErr.getLsbD (j - 16)
      else decide (j = 20) && s.errSeen := by
  simp only [State.stat, zextBit, BitVec.getLsbD_or, BitVec.getLsbD_shiftLeft, BitVec.getLsbD_setWidth,
    BitVec.getLsbD_ofBool]
  grind

theorem State.extractLsb'_stat_rv (s : State) : s.stat.extractLsb' 0 8 = s.rv := by
  refine BitVec.eq_of_getLsbD_eq fun j hj => ?_
  simp [State.getLsbD_stat, hj]

theorem State.extractLsb'_stat_lastErr (s : State) : s.stat.extractLsb' 16 4 = s.lastErr := by
  refine BitVec.eq_of_getLsbD_eq fun j hj => ?_
  simp only [BitVec.getLsbD_extractLsb', State.getLsbD_stat]
  grind

/-- Bits of STAT all of which are reserved are 0. -/
theorem State.extractLsb'_stat_reserved (s : State) {start len : Nat}
    (h : ∀ j, start ≤ j → j < start + len → 10 < j ∧ j < 16 ∨ 20 < j) : s.stat.extractLsb' start len = 0#len := by
  refine BitVec.eq_of_getLsbD_eq fun j hj => ?_
  have hplace := h (start + j) (by omega) (by omega)
  simp only [BitVec.getLsbD_extractLsb', State.getLsbD_stat, BitVec.getLsbD_zero]
  grind

/-- Settles O39: each field of STAT is read off its bits. -/
theorem statOfR32 : Obligations.StatOfR32 := by
  refine ⟨fun s => ⟨s.extractLsb'_stat_rv, s.getLsbD_stat 8, s.getLsbD_stat 9, s.getLsbD_stat 10,
    s.extractLsb'_stat_reserved (by omega), s.extractLsb'_stat_lastErr, s.getLsbD_stat 20,
    s.extractLsb'_stat_reserved (by omega)⟩, State.stat_reset, fun s hinv => ?_⟩
  rw [State.extractLsb'_stat_lastErr]
  exact hinv.lastErr_legal

end Sys2Proof.Machine
end

/-! ## The laws of rotation: 40_arithmetic R122 -/

section
namespace Sys2Proof.Machine

/-- Settles O44: two rotations are one by the sum of their amounts, and one by a multiple of 128 changes nothing. -/
theorem rotateLawsOfR122 : Obligations.RotateLawsOfR122 := by
  refine fun v n p q => ⟨rotl128_eq_self rfl v, rotl128_eq_self rfl v, ?_, ?_, rotl128_rotl128 v p q⟩
  · rw [rotl128_rotl128, rotl128_eq_self (by omega)]
  · rw [rotl128_rotl128, rotl128_eq_self (by omega)]

end Sys2Proof.Machine
end

/-! ## The step: 60_exceptions R215 and R235 -/

section
namespace Sys2Proof.Machine

theorem step_of_command {s : State} {x : Transaction} (h : s.host[s.n]? = some (.command x)) :
    step s = commandMove x s := by
  simp only [step, h]

/-- A block with a command in progress takes no other. -/
theorem commandMove_of_busy {s : State} (h : s.phase ≠ .idle) (x : Transaction) : commandMove x s = .next s := if_neg h

/-- An idle block whose host keeps its offer takes the command and performs it. -/
theorem commandMove_of_idle {s : State} {x : Transaction} (hidle : s.phase = .idle)
    (hkeeps : s.keepsOffer (some x) = true) :
    commandMove x s = mapNext State.moveOn (runCommand (s.accept x)) := by
  simp only [commandMove, hidle, hkeeps, if_true]

/-- Settles O8: with no move there is nothing to do, and a whole command waits for the one in progress. -/
theorem stepWaits : Obligations.StepWaits :=
  ⟨fun s h => by simp only [step, h],
    fun _ x h hbusy => (step_of_command h).trans (commandMove_of_busy hbusy x)⟩

/-- Settles O7: the command taken is the instruction it decodes to, which leaves the host's index for the move to count. -/
theorem stepRunsDecodedInstruction : Obligations.StepRunsDecodedInstruction := by
  intro s x i h hidle hkeeps hd
  rw [← State.accept_cmd s x] at hd
  obtain ⟨t, hexec⟩ := exec_completes i (s.accept x)
  have hrun : runCommand (s.accept x) = .next t := (runCommand_instr hd).trans hexec
  obtain ⟨-, -, -, -, -, hn⟩ := runCommand_hostSideKept hrun
  rw [step_of_command h, commandMove_of_idle hidle hkeeps, hrun, hexec, mapNext_next, mapNext_next, State.moveOn, hn,
    State.accept_n]

/-- Settles O9: the command taken is an illegal word, whose completion is `fail`. -/
theorem stepOfIllegalWord : Obligations.StepOfIllegalWord := by
  intro s x why h hidle hkeeps hd
  rw [← State.accept_cmd s x] at hd
  refine ⟨_, endsWith_fail (s.accept x) .illegal, ?_⟩
  rw [step_of_command h, commandMove_of_idle hidle hkeeps, runCommand_illegal hd]
  rfl

end Sys2Proof.Machine
end

/-! ## CTR mode: 42_ctr R161 and R171 -/

section
namespace Sys2Proof.Machine

theorem ctrMode_block {E : Word → Word → Config.CipherAnswer} {key ctr ks : Word} (hE : E key ctr = .block ks) (b : Word)
    (bs : List Word) : ctrMode E key ctr (b :: bs) = (b ^^^ ks) :: ctrMode E key (ctr + 1#128) bs := by
  simp only [ctrMode, hE]

theorem ctrMode_failure {E : Word → Word → Config.CipherAnswer} {key ctr : Word} (hE : E key ctr = .failure) (b : Word)
    (bs : List Word) : ctrMode E key ctr (b :: bs) = b :: ctrMode E key ctr bs := by
  simp only [ctrMode, hE]

/-- A keystream block added twice cancels, and a failure adds none. -/
theorem ctrMode_ctrMode (E : Word → Word → Config.CipherAnswer) (key ctr : Word) (blocks : List Word) :
    ctrMode E key ctr (ctrMode E key ctr blocks) = blocks := by
  induction blocks generalizing ctr with
  | nil => rfl
  | cons b bs ih =>
    cases hE : E key ctr with
    | block ks =>
      rw [ctrMode_block hE, ctrMode_block hE, ih, BitVec.xor_assoc, BitVec.xor_self, BitVec.xor_zero]
    | failure => rw [ctrMode_failure hE, ctrMode_failure hE, ih]

/-- Where the cipher answers every request of the run, CTR mode is the XOR with its answers. -/
theorem ctrMode_eq_zipWith {E : Word → Word → Config.CipherAnswer} {key ctr : Word} {blocks ks : List Word}
    (hlen : ks.length = blocks.length)
    (hE : ∀ (j : Nat) (k : Word), ks[j]? = some k → E key (ctr + BitVec.ofNat 128 j) = .block k) :
    ctrMode E key ctr blocks = List.zipWith (· ^^^ ·) blocks ks := by
  induction blocks generalizing ctr ks with
  | nil => rfl
  | cons b bs ih =>
    cases ks with
    | nil => simp at hlen
    | cons k ks =>
      have hfirst : E key ctr = .block k := by simpa using hE 0 k rfl
      have hrest : ∀ (j : Nat) (k' : Word), ks[j]? = some k' →
          E key (ctr + 1#128 + BitVec.ofNat 128 j) = .block k' := by
        intro j k' hj
        have hnext := hE (j + 1) k' (by simpa using hj)
        rwa [Nat.add_comm j 1, BitVec.ofNat_add, ← BitVec.add_assoc] at hnext
      rw [ctrMode_block hfirst, ih (by simpa using hlen) hrest, List.zipWith_cons_cons]

/-- One block of R171 where the cipher answers: loaded, transformed in place and read. -/
theorem execAll_job_block {s : State} {b ks : Word} (hkv : s.kv = true) (htv : s.tv = true)
    (hE : Config.cipher s.key s.ctr = .block ks) (rd : RegIdx) :
    ∃ t, execAll [.load rd, .ctrx rd rd, .read rd] { s with din := b } = .next t ∧
      t.rsp = some ⟨0#4, b ^^^ ks⟩ ∧ t.kv = true ∧ t.tv = true ∧ t.key = s.key ∧ t.ctr = s.ctr + 1#128 := by
  obtain ⟨t1, hload, ht1⟩ : ∃ t1, exec (.load rd) { s with din := b } = .next t1 ∧
      t1 = (State.setReg { s with din := b } rd b).succeed 0#128 := ⟨_, exec_load rd _, rfl⟩
  have hctrx : exec (.ctrx rd rd) t1 = .next ((t1.setReg rd (b ^^^ ks)).advanceCtr.succeed 0#128) := by
    have hrun := ctrxWith_block (s := t1) (rs1 := rd) (by simp [ht1]) (by simp [ht1, hkv]) (by simp [ht1, htv])
      (by simpa [ht1] using hE) rd
    simpa [ht1, exec_ctrx] using hrun
  have hread := exec_read_of_valid (s := (t1.setReg rd (b ^^^ ks)).advanceCtr.succeed 0#128) (rs1 := rd) (by simp)
  refine ⟨_, (execAll_cons_next hload).trans ((execAll_cons_next hctrx).trans (execAll_cons_next hread)), ?_⟩
  simp [ht1, hkv, htv, add128_zextImm_one]

/-- One block of R171 where the cipher fails: CTRX leaves the block as it was loaded, and that is read. -/
theorem execAll_job_failure {s : State} {b : Word} (hkv : s.kv = true) (htv : s.tv = true)
    (hE : Config.cipher s.key s.ctr = .failure) (rd : RegIdx) :
    ∃ t, execAll [.load rd, .ctrx rd rd, .read rd] { s with din := b } = .next t ∧
      t.rsp = some ⟨0#4, b⟩ ∧ t.kv = true ∧ t.tv = true ∧ t.key = s.key ∧ t.ctr = s.ctr := by
  obtain ⟨t1, hload, ht1⟩ : ∃ t1, exec (.load rd) { s with din := b } = .next t1 ∧
      t1 = (State.setReg { s with din := b } rd b).succeed 0#128 := ⟨_, exec_load rd _, rfl⟩
  have hctrx : exec (.ctrx rd rd) t1 = .next (t1.fail .primFail) :=
    ctrxWith_failure (by simp [ht1]) (by simp [ht1, hkv]) (by simp [ht1, htv]) (by simpa [ht1] using hE) rd
  have hread := exec_read_of_valid (s := t1.fail .primFail) (rs1 := rd) (by simp [ht1])
  refine ⟨_, (execAll_cons_next hload).trans ((execAll_cons_next hctrx).trans (execAll_cons_next hread)), ?_⟩
  simp [ht1, hkv, htv]

theorem jobOutputs_cons {rd : RegIdx} {b : Word} {s t : State} {a : Response}
    (h : execAll [.load rd, .ctrx rd rd, .read rd] { s with din := b } = .next t) (ha : t.rsp = some a)
    (bs : List Word) : jobOutputs rd (b :: bs) s = a.dout :: jobOutputs rd bs t := by
  simp only [jobOutputs, h, ha]

/-- The sequence of R171 is CTR mode from the KEY and CTR it starts with. -/
theorem jobOutputs_eq_ctrMode (rd : RegIdx) {blocks : List Word} {s : State} (hkv : s.kv = true) (htv : s.tv = true) :
    jobOutputs rd blocks s = ctrMode Config.cipher s.key s.ctr blocks := by
  induction blocks generalizing s with
  | nil => rfl
  | cons b bs ih =>
    cases hE : Config.cipher s.key s.ctr with
    | block ks =>
      obtain ⟨t, hrun, hrsp, hkv', htv', hkey, hctr⟩ := execAll_job_block (b := b) hkv htv hE rd
      rw [jobOutputs_cons hrun hrsp, ctrMode_block hE, ih hkv' htv', hkey, hctr]
    | failure =>
      obtain ⟨t, hrun, hrsp, hkv', htv', hkey, hctr⟩ := execAll_job_failure (b := b) hkv htv hE rd
      rw [jobOutputs_cons hrun hrsp, ctrMode_failure hE, ih hkv' htv', hkey, hctr]

/-- Settles O47: each by induction on the blocks, the counter moving on where the cipher answers. -/
theorem ctrModeOfR161 : Obligations.CtrModeOfR161 :=
  ⟨fun rd _ _ hkv htv => jobOutputs_eq_ctrMode rd hkv htv, fun _ _ _ _ _ hlen hE => ctrMode_eq_zipWith hlen hE,
    ctrMode_ctrMode⟩

end Sys2Proof.Machine
end

/-! ## The invariant of a run: 60_exceptions R210, 10_state R30 to R34, 20_memory R53 and R54 -/

section
namespace Sys2Proof.Machine

/-- The part of the invariant that is not about the phase: LASTERR, ERRSEEN and the response (R210, R30 to R32). -/
structure State.LegalRecord (s : State) : Prop where
  lastErr_legal : s.lastErr.toNat ≤ 7
  lastErr_seen : s.lastErr ≠ 0#4 → s.errSeen = true
  rsp_legal : ∀ a, s.rsp = some a → a.status.toNat ≤ 7 ∧ (a.status ≠ 0#4 → a.dout = 0#128)

theorem State.Inv.legalRecord {s : State} (h : s.Inv) : s.LegalRecord := ⟨h.lastErr_legal, h.lastErr_seen, h.rsp_legal⟩

/-- A legal record and a phase that has what it needs meet the invariant. -/
theorem State.LegalRecord.inv_setPhase {s : State} (h : s.LegalRecord) {p : Phase}
    (hrsp : p = .responding → s.rsp ≠ none) (hasks : p = .requesting ∨ p = .awaiting → s.asksCipher = true) :
    (s.setPhase p).Inv :=
  ⟨h.lastErr_legal, h.lastErr_seen, h.rsp_legal, hrsp, hasks⟩

theorem Status.code_le_seven (st : Status) : st.code.toNat ≤ 7 := by
  cases st <;> decide

/-- A command leaves a legal record, with its response in it (R213, R214). -/
theorem runCommand_legalRecord {s t : State} (h : s.LegalRecord) (hrun : runCommand s = .next t) :
    t.LegalRecord ∧ t.rsp ≠ none := by
  obtain ⟨st, -, -, rfl⟩ | ⟨-, rfl⟩ | ⟨i, -, -, -, rfl⟩ := runCommand_cases hrun
  · refine ⟨⟨st.code_le_seven, fun _ => rfl, fun a ha => ?_⟩, by simp⟩
    cases ha
    exact ⟨st.code_le_seven, fun _ => rfl⟩
  · refine ⟨⟨h.lastErr_legal, h.lastErr_seen, fun a ha => ?_⟩, by simp⟩
    cases ha
    exact ⟨Nat.zero_le 7, fun hne => absurd rfl hne⟩
  · refine ⟨⟨Nat.zero_le 7, fun hne => absurd rfl hne, fun a ha => ?_⟩, by simp⟩
    cases ha
    exact ⟨Nat.zero_le 7, fun hne => absurd rfl hne⟩

theorem State.Inv.finish {s t : State} (h : s.Inv) (hfin : s.finish = .next t) : t.Inv := by
  obtain ⟨u, hrun, rfl⟩ := State.finish_next hfin
  obtain ⟨hrecord, hrsp⟩ := runCommand_legalRecord h.legalRecord hrun
  exact hrecord.inv_setPhase (fun _ => hrsp) (by simp)

theorem State.Inv.edgeByPhase {s t : State} {p : PinsIn} (h : s.Inv) (hedge : s.edgeByPhase p = .next t) : t.Inv := by
  obtain ⟨-, -, rfl⟩ | ⟨left, -, rfl⟩ | ⟨-, hasks, rfl⟩ | ⟨-, -, hfin⟩ | ⟨hp, -, -, rfl⟩ | ⟨-, -, -, hfin⟩ |
    ⟨-, -, rfl⟩ | ⟨-, rfl⟩ := State.edgeByPhase_next hedge
  · have hrecord : (s.accept ⟨p.cmd, p.din⟩).LegalRecord := ⟨h.lastErr_legal, h.lastErr_seen, h.rsp_legal⟩
    exact hrecord.inv_setPhase (by simp) (by simp)
  · exact h.legalRecord.inv_setPhase (by simp) (by simp)
  · exact h.legalRecord.inv_setPhase (by simp) (fun _ => hasks)
  · exact h.finish hfin
  · exact h.legalRecord.inv_setPhase (by simp) (fun _ => h.request_asked (.inl hp))
  · exact h.finish hfin
  · exact h.legalRecord.inv_setPhase (by simp) (by simp)
  · exact h

theorem State.Inv.setOffer {s : State} (h : s.Inv) (o : Option Transaction) : (s.setOffer o).Inv :=
  ⟨h.lastErr_legal, h.lastErr_seen, h.rsp_legal, h.rsp_offered, h.request_asked⟩

theorem State.Inv.moveOn {s : State} (h : s.Inv) : s.moveOn.Inv :=
  ⟨h.lastErr_legal, h.lastErr_seen, h.rsp_legal, h.rsp_offered, h.request_asked⟩

theorem State.inv_resetEdge (s : State) : s.resetEdge.Inv :=
  ⟨Nat.zero_le 7, fun hne => absurd rfl hne, by simp, by simp, by simp⟩

theorem State.Inv.clockEdge {s t : State} {p : PinsIn} (h : s.Inv) (hedge : clockEdge p s = .next t) : t.Inv := by
  obtain ⟨-, rfl⟩ | ⟨-, -, hphase⟩ := clockEdge_next hedge
  · exact s.inv_resetEdge
  · exact (h.setOffer p.offered).edgeByPhase hphase

theorem State.Inv.commandMove {s t : State} {x : Transaction} (h : s.Inv) (hmove : commandMove x s = .next t) : t.Inv := by
  obtain ⟨hidle, -, u, hrun, rfl⟩ | ⟨-, rfl⟩ := commandMove_next hmove
  · have hrecord : (s.accept x).LegalRecord := ⟨h.lastErr_legal, h.lastErr_seen, h.rsp_legal⟩
    obtain ⟨hphase, -⟩ := runCommand_hostSideKept hrun
    have huidle : u.phase = .idle := hphase.trans hidle
    obtain ⟨hrecord', -⟩ := runCommand_legalRecord hrecord hrun
    have hinv : (u.setPhase .idle).Inv := hrecord'.inv_setPhase (by simp) (by simp)
    rw [State.setPhase_self huidle] at hinv
    exact hinv.moveOn
  · exact h

/-- Settles O49: a command leaves a legal record with a response, and each phase is entered with what it needs. -/
theorem stepKeepsInvariant : Obligations.StepKeepsInvariant := by
  intro s t h hstep
  obtain ⟨-, rfl⟩ | ⟨x, -, hmove⟩ | ⟨p, u, -, hedge, rfl⟩ := step_next hstep
  · exact h
  · exact h.commandMove hmove
  · exact (h.clockEdge hedge).moveOn

/-- Settles O48: after reset there is no error, no response and no request. -/
theorem resetMeetsInvariant : Obligations.ResetMeetsInvariant :=
  ⟨by decide, fun hne => absurd rfl hne, by simp [State.reset], by simp [State.reset], by simp [State.reset]⟩

end Sys2Proof.Machine
end

/-! ## Support: states the host cannot tell apart

70_reset R241: each part of the block keeps two states alike that differ only in the contents of unwritten registers. -/

section
namespace Sys2Proof.Machine

/-- A CTRX that asks the cipher has passed its checks before PRIM_FAIL (20_memory R54). -/
theorem State.asksCipher_iff {s : State} : s.asksCipher = true ↔
    ∃ rd rs1, decode s.cmd = .instr (.ctrx rd rs1) ∧ s.valid rs1 = true ∧ s.kv = true ∧ s.tv = true := by
  unfold State.asksCipher
  split
  · rename_i rd rs1 hd
    simp [hd, and_assoc]
  · rename_i hno
    refine iff_of_false Bool.false_ne_true ?_
    rintro ⟨rd, rs1, hd, -⟩
    exact hno rd rs1 hd

theorem SameOutcome.mapNext {R : State → State → Prop} {f : State → State} {a b : Result} (h : SameOutcome R a b)
    (hf : ∀ s t, R s t → R (f s) (f t)) : SameOutcome R (mapNext f a) (mapNext f b) := by
  cases a with
  | next s =>
    cases b with
    | next t => exact hf s t h
    | fault | refused => exact h
  | fault | refused => cases b <;> exact h

namespace SameButUnwritten

variable {s t : State}

/-! What the checks and the responses read is the same. -/

theorem valid_eq (h : SameButUnwritten s t) (i : RegIdx) : s.valid i = t.valid i := State.valid_congr h.rv i

theorem asksCipher_eq (h : SameButUnwritten s t) : s.asksCipher = t.asksCipher := by
  simp only [State.asksCipher, h.cmd, h.valid_eq, h.kv, h.tv]

theorem keepsOffer_eq (h : SameButUnwritten s t) (now : Option Transaction) : s.keepsOffer now = t.keepsOffer now := by
  simp only [State.keepsOffer, h.offer]

theorem stat_eq (h : SameButUnwritten s t) : s.stat = t.stat := by
  simp only [State.stat, h.errSeen, h.lastErr, h.tv, h.kv, h.cv, h.rv]

/-- With KEY and CTR loaded the cipher is asked the same. -/
theorem request_eq (h : SameButUnwritten s t) (hkv : s.kv = true) (htv : s.tv = true)
    (E : Word → Word → Config.CipherAnswer) : E s.key s.ctr = E t.key t.ctr := by
  rw [h.key hkv, h.ctr htv]

theorem check_eq (h : SameButUnwritten s t) (E : Word → Word → Config.CipherAnswer) (i : Instr) :
    check E i s = check E i t := by
  simp only [check, ← h.valid_eq, ← h.cv, ← h.kv, ← h.tv]
  cases hkv : s.kv with
  | false => cases hi : isCtrx i <;> simp
  | true =>
    cases htv : s.tv with
    | false => cases hi : isCtrx i <;> simp
    | true => rw [h.request_eq hkv htv E]

/-! The updates keep the two alike. -/

theorem setReg {v w : Word} (h : SameButUnwritten s t) (rd : RegIdx) (hv : v = w) :
    SameButUnwritten (s.setReg rd v) (t.setReg rd w) :=
  { h with
    rv := congrArg (markValid · rd) h.rv
    reg := fun i hi => by
      rw [State.reg_setReg, State.reg_setReg]
      by_cases hrd : i = rd
      · rw [if_pos hrd, if_pos hrd, hv]
      · rw [if_neg hrd, if_neg hrd]
        exact h.reg i (by rwa [State.valid_setReg_other s hrd] at hi) }

theorem setConst {v w : Word} (h : SameButUnwritten s t) (hv : v = w) :
    SameButUnwritten (s.setConst v) (t.setConst w) :=
  { h with cv := rfl, c := fun _ => hv }

theorem setKey {v w : Word} (h : SameButUnwritten s t) (hv : v = w) :
    SameButUnwritten (s.setKey v) (t.setKey w) :=
  { h with kv := rfl, key := fun _ => hv }

theorem setCtr {v w : Word} (h : SameButUnwritten s t) (hv : v = w) :
    SameButUnwritten (s.setCtr v) (t.setCtr w) :=
  { h with tv := rfl, ctr := fun _ => hv }

theorem fail (h : SameButUnwritten s t) (st : Status) : SameButUnwritten (s.fail st) (t.fail st) :=
  { h with lastErr := rfl, errSeen := rfl, rsp := rfl }

theorem respond {d e : Word} (h : SameButUnwritten s t) (st : Status) (hd : d = e) :
    SameButUnwritten (s.respond st d) (t.respond st e) :=
  { h with rsp := by rw [State.respond_rsp, State.respond_rsp, hd] }

theorem succeed {d e : Word} (h : SameButUnwritten s t) (hd : d = e) :
    SameButUnwritten (s.succeed d) (t.succeed e) :=
  { h with lastErr := rfl, rsp := by rw [State.succeed_rsp, State.succeed_rsp, hd] }

theorem accept (h : SameButUnwritten s t) (x : Transaction) : SameButUnwritten (s.accept x) (t.accept x) :=
  { h with cmd := rfl, din := rfl, offer := rfl }

theorem setPhase (h : SameButUnwritten s t) (p : Phase) : SameButUnwritten (s.setPhase p) (t.setPhase p) :=
  { h with phase := rfl }

theorem setOffer (h : SameButUnwritten s t) (o : Option Transaction) :
    SameButUnwritten (s.setOffer o) (t.setOffer o) :=
  { h with offer := rfl }

theorem moveOn (h : SameButUnwritten s t) : SameButUnwritten s.moveOn t.moveOn :=
  { h with n := congrArg (· + 1) h.n }

/-- With every valid bit 0 the contents of the registers do not matter. -/
theorem of_unwritten (hrv : s.rv = 0#8) (hcv : s.cv = false) (hkv : s.kv = false) (htv : s.tv = false)
    (k : Config.Contents) : SameButUnwritten s { s with r := k.r, c := k.c, key := k.key, ctr := k.ctr } where
  rv := rfl
  reg i hi := by simp [State.valid, hrv] at hi
  cv := rfl
  c hc := by simp [hcv] at hc
  kv := rfl
  key hk := by simp [hkv] at hk
  tv := rfl
  ctr ht := by simp [htv] at ht
  lastErr := rfl
  errSeen := rfl
  phase := rfl
  cmd := rfl
  din := rfl
  offer := rfl
  rsp := rfl
  host := rfl
  n := rfl

theorem resetEdge (h : SameButUnwritten s t) : SameButUnwritten s.resetEdge t.resetEdge where
  rv := rfl
  reg i hi := by simp at hi
  cv := rfl
  c hc := by simp at hc
  kv := rfl
  key hk := by simp at hk
  tv := rfl
  ctr ht := by simp at ht
  lastErr := rfl
  errSeen := rfl
  phase := rfl
  cmd := h.cmd
  din := h.din
  offer := rfl
  rsp := rfl
  host := h.host
  n := h.n

/-! A command, an edge and a step keep the two alike. -/

/-- An effect after a passed check reads only what has been written. -/
theorem perform_congr {i : Instr} (h : SameButUnwritten s t) (hok : check Config.cipher i s = .ok) :
    SameButUnwritten (perform Config.cipher i s).1 (perform Config.cipher i t).1 ∧
      (perform Config.cipher i s).2 = (perform Config.cipher i t).2 := by
  obtain ⟨hsources, hcv, -, hkv, htv, -⟩ := check_eq_ok_iff.1 hok
  have hreg : ∀ a ∈ sourcesOf i, s.reg a = t.reg a := fun a ha => h.reg a (hsources a ha)
  cases i with
  | nop => exact ⟨h, rfl⟩
  | read a => exact ⟨h, hreg a (by simp [sourcesOf])⟩
  | rdstat => exact ⟨h, congrArg (·.setWidth 128) h.stat_eq⟩
  | load rd => exact ⟨h.setReg rd h.din, rfl⟩
  | xor rd a b | add rd a b =>
    exact ⟨h.setReg rd (by rw [hreg a (by simp [sourcesOf]), hreg b (by simp [sourcesOf])]), rfl⟩
  | adds rd a | rotl rd a => exact ⟨h.setReg rd (by rw [hreg a (by simp [sourcesOf])]), rfl⟩
  | scram rd a b =>
    exact ⟨h.setReg rd (by rw [hreg a (by simp [sourcesOf]), hreg b (by simp [sourcesOf]), h.c (hcv rfl)]), rfl⟩
  | setc a => exact ⟨h.setConst (hreg a (by simp [sourcesOf])), rfl⟩
  | setkey a => exact ⟨h.setKey (hreg a (by simp [sourcesOf])), rfl⟩
  | setctr a => exact ⟨h.setCtr (hreg a (by simp [sourcesOf])), rfl⟩
  | keygen a b =>
    exact ⟨h.setKey (by rw [hreg a (by simp [sourcesOf]), hreg b (by simp [sourcesOf]), h.c (hcv rfl)]), rfl⟩
  | getctr rd => exact ⟨h.setReg rd (h.ctr (htv (.inr rfl))), rfl⟩
  | ctrx rd a =>
    have hctr : s.ctr = t.ctr := h.ctr (htv (.inl rfl))
    have hE := h.request_eq (hkv rfl) (htv (.inl rfl)) Config.cipher
    obtain ⟨ks, hks⟩ := exists_block_of_check_ctrx hok
    simp only [perform, hks, hE ▸ hks, and_true]
    have hwrite := h.setReg rd (congrArg (· ^^^ ks) (hreg a (by simp [sourcesOf])))
    exact { hwrite with ctr := fun _ => congrArg (· + 1#128) hctr }

theorem exec_next {i : Instr} {s' t' : State} (h : SameButUnwritten s t) (hs : exec i s = .next s')
    (ht : exec i t = .next t') : SameButUnwritten s' t' := by
  have hcheck := h.check_eq Config.cipher i
  obtain ⟨st, hst, hc, rfl⟩ | ⟨hok, rfl, rfl⟩ | ⟨hok, hi, rfl⟩ := exec_cases hs
  · rw [exec_of_check_ne_ok (by rw [← hcheck, hc]; exact hst), ← hcheck, hc] at ht
    cases ht
    exact h.fail st
  · cases ht
    exact h.respond .ok (congrArg (·.setWidth 128) h.stat_eq)
  · rw [exec_of_check_ok hi (hcheck ▸ hok)] at ht
    cases ht
    obtain ⟨hstate, hdout⟩ := h.perform_congr hok
    exact hstate.succeed hdout

theorem runCommand_next {s' t' : State} (h : SameButUnwritten s t) (hs : runCommand s = .next s')
    (ht : runCommand t = .next t') : SameButUnwritten s' t' := by
  cases hd : decode s.cmd with
  | instr i =>
    rw [runCommand_instr hd] at hs
    rw [runCommand_instr (h.cmd ▸ hd)] at ht
    exact h.exec_next hs ht
  | illegal why =>
    rw [runCommand_illegal hd] at hs
    rw [runCommand_illegal (h.cmd ▸ hd)] at ht
    cases hs
    cases ht
    exact h.fail .illegal

/-- A command always completes, so on both states it does, and in states that are alike. -/
theorem runCommand_congr (h : SameButUnwritten s t) :
    SameOutcome SameButUnwritten (runCommand s) (runCommand t) := by
  obtain ⟨s', hs⟩ := runCommand_completes s
  obtain ⟨t', ht⟩ := runCommand_completes t
  rw [hs, ht]
  exact h.runCommand_next hs ht

theorem finish_congr (h : SameButUnwritten s t) : SameOutcome SameButUnwritten s.finish t.finish :=
  h.runCommand_congr.mapNext fun _ _ h' => h'.setPhase .responding

theorem takeAnswer_congr (h : SameButUnwritten s t) (hkv : s.kv = true) (htv : s.tv = true) (p : PinsIn) :
    SameOutcome SameButUnwritten (s.takeAnswer p) (t.takeAnswer p) := by
  simp only [State.takeAnswer, ← h.request_eq hkv htv Config.cipher]
  split
  · exact h.finish_congr
  · rfl

theorem edgeByPhase_congr (h : SameButUnwritten s t) (hinv : s.Inv) (p : PinsIn) :
    SameOutcome SameButUnwritten (s.edgeByPhase p) (t.edgeByPhase p) := by
  have hanswer : s.phase = .requesting ∨ s.phase = .awaiting →
      SameOutcome SameButUnwritten (s.takeAnswer p) (t.takeAnswer p) := by
    intro hp
    obtain ⟨-, -, -, -, hkv, htv⟩ := State.asksCipher_iff.1 (hinv.request_asked hp)
    exact h.takeAnswer_congr hkv htv p
  simp only [State.edgeByPhase, ← h.phase, ← h.asksCipher_eq]
  split <;> rename_i hp
  · split
    · exact (h.accept _).setPhase _
    · exact h
  · exact h.setPhase _
  · split
    · exact h.setPhase _
    · exact h.finish_congr
  · split
    · split
      · exact hanswer (.inl hp)
      · exact h.setPhase _
    · exact h
  · split
    · exact hanswer (.inr hp)
    · exact h
  · split
    · exact h.setPhase _
    · exact h

theorem clockEdge_congr (h : SameButUnwritten s t) (hinv : s.Inv) (p : PinsIn) :
    SameOutcome SameButUnwritten (clockEdge p s) (clockEdge p t) := by
  simp only [clockEdge, ← h.keepsOffer_eq]
  split
  · exact h.resetEdge
  · split
    · exact (h.setOffer _).edgeByPhase_congr (hinv.setOffer _) p
    · rfl

theorem commandMove_congr (h : SameButUnwritten s t) (x : Transaction) :
    SameOutcome SameButUnwritten (commandMove x s) (commandMove x t) := by
  simp only [commandMove, ← h.phase, ← h.keepsOffer_eq]
  split
  · split
    · exact (h.accept x).runCommand_congr.mapNext fun _ _ h' => h'.moveOn
    · rfl
  · exact h

theorem step_congr (h : SameButUnwritten s t) (hinv : s.Inv) : SameOutcome SameButUnwritten (step s) (step t) := by
  simp only [step, ← h.host, ← h.n]
  split
  · exact h
  · exact h.commandMove_congr _
  · exact (h.clockEdge_congr hinv _).mapNext fun _ _ h' => h'.moveOn

theorem core_run_congr (h : SameButUnwritten s t) (hinv : s.Inv) (k : Nat) :
    SameOutcome SameButUnwritten (Host.Core.run Sys2Proof.core k s) (Host.Core.run Sys2Proof.core k t) := by
  induction k generalizing s t with
  | zero => exact h
  | succ k ih =>
    have hstep := h.step_congr hinv
    cases hs : step s with
    | fault a => cases a
    | next s' =>
      cases ht : step t with
      | fault a => cases a
      | next t' =>
        rw [hs, ht] at hstep
        rw [core_run_next hs, core_run_next ht]
        exact ih hstep (stepKeepsInvariant s s' hinv hs)
      | refused b => simp [hs, ht, SameOutcome] at hstep
    | refused a =>
      cases ht : step t with
      | fault b => cases b
      | next t' => simp [hs, ht, SameOutcome] at hstep
      | refused b =>
        rw [hs, ht] at hstep
        rw [core_run_refused hs, core_run_refused ht]
        exact hstep

theorem outputs_eq (h : SameButUnwritten s t) (hinv : s.Inv) (rst : Bool) : s.outputs rst = t.outputs rst := by
  by_cases hp : s.phase = .requesting
  · obtain ⟨-, -, -, -, hkv, htv⟩ := State.asksCipher_iff.1 (hinv.request_asked (.inl hp))
    simp only [State.outputs, ← h.phase, ← h.rsp, h.key hkv, h.ctr htv]
  · simp [State.outputs, ← h.phase, ← h.rsp, hp]

end SameButUnwritten

end Sys2Proof.Machine
end

/-! ## What the host cannot observe: 70_reset R241 -/

section
namespace Sys2Proof.Machine

/-- Settles O50: every step keeps two such states alike, by induction on the number of steps with the invariant, which gives
the cipher's request loaded registers; and after a reset no register is written. -/
theorem unwrittenContentsUnobservable : Obligations.UnwrittenContentsUnobservable := by
  refine ⟨fun s t k hinv h => h.core_run_congr hinv k, fun s t rst hinv h => h.outputs_eq hinv rst, fun s k hs => ?_⟩
  obtain rfl | ⟨u, rfl⟩ := hs
  · exact .of_unwritten rfl rfl rfl rfl k
  · exact .of_unwritten rfl rfl rfl rfl k

end Sys2Proof.Machine
end

/-! ## Support: the outputs and the clock edge, by phase

20_memory R52 to R54, 70_reset R240 and R247: what is on offer in a phase, and what one edge without reset does in it. -/

section
namespace Sys2Proof.Machine

/-! The outputs. -/

theorem State.outputs_cmdReady {s : State} {rst : Bool} :
    (s.outputs rst).cmdReady = true ↔ rst = false ∧ s.phase = .idle := by
  simp [State.outputs]

theorem State.outputs_rsp {s : State} {a : Response} :
    (s.outputs false).rsp = some a ↔ s.phase = .responding ∧ s.rsp = some a := by
  simp [State.outputs]

theorem State.outputs_eReq {s : State} {q : Word × Word} :
    (s.outputs false).eReq = some q ↔ s.phase = .requesting ∧ (s.key, s.ctr) = q := by
  simp [State.outputs]

theorem State.outputs_eReq_of_ne {s : State} (h : s.phase ≠ .requesting) : (s.outputs false).eReq = none := by
  simp [State.outputs, h]

/-! The edge. -/

/-- An edge without reset, at which the host keeps its offer. -/
theorem clockEdge_live {p : PinsIn} {s : State} (hrst : p.rst = false) (hkeeps : s.keepsOffer p.offered = true) :
    clockEdge p s = (s.setOffer p.offered).edgeByPhase p := by
  simp [clockEdge, hrst, hkeeps]

theorem clockEdge_next_live {p : PinsIn} {s t : State} (hrst : p.rst = false) (h : clockEdge p s = .next t) :
    (s.setOffer p.offered).edgeByPhase p = .next t := by
  obtain ⟨hreset, -⟩ | ⟨-, -, hphase⟩ := clockEdge_next h
  · simp [hrst] at hreset
  · exact hphase

/-- An edge at which nothing is asserted, to a host that offers nothing. -/
theorem clockEdge_of_no_offer {p : PinsIn} {s : State} (hrst : p.rst = false) (hoffered : p.offered = none)
    (hoffer : s.offer = none) : clockEdge p s = s.edgeByPhase p := by
  rw [clockEdge_live hrst (keepsOffer_none hoffer _), hoffered, State.setOffer_self hoffer]

theorem State.edgeByPhase_idle {s : State} {p : PinsIn} (h : s.phase = .idle) (hvalid : p.cmdValid = true) :
    s.edgeByPhase p = .next ((s.accept ⟨p.cmd, p.din⟩).setPhase (.working Config.extraLatency)) := by
  simp [State.edgeByPhase, h, hvalid]

theorem State.edgeByPhase_working {s : State} {left : Nat} (h : s.phase = .working (left + 1)) (p : PinsIn) :
    s.edgeByPhase p = .next (s.setPhase (.working left)) := by
  simp [State.edgeByPhase, h]

theorem State.edgeByPhase_request {s : State} (h : s.phase = .working 0) (hasks : s.asksCipher = true) (p : PinsIn) :
    s.edgeByPhase p = .next (s.setPhase .requesting) := by
  simp [State.edgeByPhase, h, hasks]

theorem State.edgeByPhase_finish {s : State} (h : s.phase = .working 0) (hasks : s.asksCipher = false) (p : PinsIn) :
    s.edgeByPhase p = s.finish := by
  simp [State.edgeByPhase, h, hasks]

theorem State.edgeByPhase_requesting_wait {s : State} {p : PinsIn} (h : s.phase = .requesting)
    (hready : p.eReqReady = false) : s.edgeByPhase p = .next s := by
  simp [State.edgeByPhase, h, hready]

theorem State.edgeByPhase_accepted {s : State} {p : PinsIn} (h : s.phase = .requesting) (hready : p.eReqReady = true)
    (hanswer : p.eRspValid = false) : s.edgeByPhase p = .next (s.setPhase .awaiting) := by
  simp [State.edgeByPhase, h, hready, hanswer]

theorem State.edgeByPhase_answered_at_once {s : State} {p : PinsIn} (h : s.phase = .requesting)
    (hready : p.eReqReady = true) (hanswer : p.eRspValid = true) : s.edgeByPhase p = s.takeAnswer p := by
  simp [State.edgeByPhase, h, hready, hanswer]

theorem State.edgeByPhase_awaiting_wait {s : State} {p : PinsIn} (h : s.phase = .awaiting)
    (hanswer : p.eRspValid = false) : s.edgeByPhase p = .next s := by
  simp [State.edgeByPhase, h, hanswer]

theorem State.edgeByPhase_answered {s : State} {p : PinsIn} (h : s.phase = .awaiting)
    (hanswer : p.eRspValid = true) : s.edgeByPhase p = s.takeAnswer p := by
  simp [State.edgeByPhase, h, hanswer]

theorem State.edgeByPhase_responding_wait {s : State} {p : PinsIn} (h : s.phase = .responding)
    (hready : p.rspReady = false) : s.edgeByPhase p = .next s := by
  simp [State.edgeByPhase, h, hready]

theorem State.edgeByPhase_taken {s : State} {p : PinsIn} (h : s.phase = .responding)
    (hready : p.rspReady = true) : s.edgeByPhase p = .next (s.setPhase .idle) := by
  simp [State.edgeByPhase, h, hready]

/-- P_E's answer completes the command. -/
theorem State.takeAnswer_of_eq {s : State} {p : PinsIn} (h : p.answer = Config.cipher s.key s.ctr) :
    s.takeAnswer p = s.finish := if_pos h

/-- Any other answer breaks the cipher's duty. -/
theorem State.takeAnswer_of_ne {s : State} {p : PinsIn} (h : p.answer ≠ Config.cipher s.key s.ctr) :
    s.takeAnswer p = .refused .cipherBrokeDuty := if_neg h

/-- Finishing a command leaves its sampled word and DIN, and offers the response. -/
theorem State.finish_frame {s t : State} (h : s.finish = .next t) :
    t.phase = .responding ∧ t.cmd = s.cmd ∧ t.din = s.din := by
  obtain ⟨u, hrun, rfl⟩ := State.finish_next h
  obtain ⟨-, hcmd, hdin, -⟩ := runCommand_hostSideKept hrun
  exact ⟨rfl, hcmd, hdin⟩

end Sys2Proof.Machine
end

/-! ## Reset and broken duties: 70_reset R240, R242 and R245 -/

section
namespace Sys2Proof.Machine

/-- Settles O12: under RST = 1 nothing is valid or ready, and the reset leaves the block idle and the host free to offer. -/
theorem outputsUnderReset : Obligations.OutputsUnderReset := by
  refine ⟨fun s => by simp [State.outputs], fun s p q hp hq hvalid => ?_⟩
  have htaken := (clockEdge_live hq (keepsOffer_none (s := s.resetEdge) rfl _)).trans (State.edgeByPhase_idle rfl hvalid)
  exact ⟨s.resetEdge, _, clockEdge_reset hp s, State.outputs_cmdReady.2 ⟨hq, rfl⟩, htaken, rfl, rfl, by simp⟩

/-- The pins of the cipher's answer are looked at only while a request is out, or as one is accepted. -/
theorem State.edgeByPhase_withAnswer {s : State} {p : PinsIn} (hreq : s.phase = .requesting → p.eReqReady = false)
    (hwait : s.phase ≠ .awaiting) (valid failed : Bool) (data : Word) :
    s.edgeByPhase { p with eRspValid := valid, eRspFail := failed, eRspData := data } = s.edgeByPhase p := by
  cases hp : s.phase with
  | requesting =>
    simp [State.edgeByPhase, hp, hreq hp]
  | awaiting => exact absurd hp hwait
  | working left => cases left <;> simp only [State.edgeByPhase, hp]
  | idle | responding => simp only [State.edgeByPhase, hp]

/-- Settles O11: the edge with RST = 1 clears the phase, the request and the response with it, and the answer's pins are
looked at in no other phase. -/
theorem resetAbandonsCommand : Obligations.ResetAbandonsCommand := by
  refine ⟨fun s p hp => ?_, fun s p valid failed data hreq hwait => ?_⟩
  · exact ⟨s.resetEdge, clockEdge_reset hp s, rfl, rfl, rfl, rfl, rfl, rfl, rfl, rfl, rfl, rfl⟩
  · have hphase := State.edgeByPhase_withAnswer (s := s.setOffer p.offered) hreq hwait valid failed data
    unfold clockEdge
    exact if_congr Iff.rfl rfl (if_congr Iff.rfl hphase rfl)

/-- Settles O57: a live edge is refused if the host does not keep its offer, and an answer taken is refused if it is not
P_E's. -/
theorem brokenDutiesRefused : Obligations.BrokenDutiesRefused := by
  refine ⟨fun s p x hrst hoffer hne => ?_, fun s p hrst hkeeps hp hvalid hne => ?_,
    fun s p hrst hkeeps hp hready hvalid hne => ?_⟩
  · have hdropped : s.keepsOffer p.offered = false := by simp [State.keepsOffer, hoffer, Ne.symm hne]
    simp [clockEdge, hrst, hdropped]
  · rw [clockEdge_live hrst hkeeps, State.edgeByPhase_answered (s := s.setOffer p.offered) hp hvalid]
    exact State.takeAnswer_of_ne hne
  · rw [clockEdge_live hrst hkeeps, State.edgeByPhase_answered_at_once (s := s.setOffer p.offered) hp hready hvalid]
    exact State.takeAnswer_of_ne hne

end Sys2Proof.Machine
end

/-! ## A whole handshake: 20_memory R53 and R54, 70_reset R247 -/

section
namespace Sys2Proof.Machine

theorem clockEdge_quiet {s : State} (hoffer : s.offer = none) : clockEdge quietPins s = s.edgeByPhase quietPins :=
  clockEdge_of_no_offer rfl rfl hoffer

/-- Waiting: an edge that changes nothing, any number of times. -/
theorem clockEdges_replicate_of_fixed {p : PinsIn} {s : State} (h : clockEdge p s = .next s) (k : Nat) :
    clockEdges (List.replicate k p) s = .next s := by
  induction k with
  | zero => rfl
  | succ k ih => exact (clockEdges_cons_next h).trans ih

theorem clockEdges_singleton (p : PinsIn) (s : State) : clockEdges [p] s = clockEdge p s := by
  simp only [clockEdges]
  split <;> simp_all

/-- The latency counts down, one edge each. -/
theorem clockEdges_working {s : State} (hoffer : s.offer = none) (k : Nat) :
    clockEdges (List.replicate k quietPins) (s.setPhase (.working k)) = .next (s.setPhase (.working 0)) := by
  induction k with
  | zero => rfl
  | succ k ih =>
    have hedge : clockEdge quietPins (s.setPhase (.working (k + 1))) = .next (s.setPhase (.working k)) :=
      (clockEdge_quiet (s := s.setPhase (.working (k + 1))) hoffer).trans (State.edgeByPhase_working rfl quietPins)
    exact (clockEdges_cons_next hedge).trans ih

@[simp] theorem answerPins_answer (a : Config.CipherAnswer) : (answerPins a).answer = a := by
  cases a <;> rfl

theorem answerPins_frame (a : Config.CipherAnswer) :
    (answerPins a).rst = false ∧ (answerPins a).offered = none ∧ (answerPins a).eRspValid = true := by
  cases a <;> exact ⟨rfl, rfl, rfl⟩

/-- The command transfer. -/
theorem clockEdge_transfer {s : State} (hidle : s.phase = .idle) (hoffer : s.offer = none) (x : Transaction) :
    clockEdge (offerPins x) s = .next ((s.accept x).setPhase (.working Config.extraLatency)) := by
  rw [clockEdge_live rfl (keepsOffer_none hoffer _)]
  exact State.edgeByPhase_idle (s := s.setOffer (offerPins x).offered) hidle rfl

/-- The command as performed at the end of its latency or at the cipher's answer, whatever the phase it is performed in. -/
theorem State.finish_setPhase {w v : State} (hrun : runCommand w = .next v) (p : Phase) :
    (w.setPhase p).finish = .next (v.setPhase .responding) := by
  rw [State.finish, runCommand_setPhase, hrun]
  rfl

/-- A run of edges after another. -/
theorem clockEdges_append {ps qs : List PinsIn} {s t : State} {o : Result} (h : clockEdges ps s = .next t)
    (h' : clockEdges qs t = o) : clockEdges (ps ++ qs) s = o :=
  (clockEdges_append_next h).trans h'

/-- From the request to the response: the request waits, is accepted, and its answer comes (R54). -/
theorem clockEdges_request {w v : State} (hoffer : w.offer = none) (hrun : runCommand w = .next v) (a b : Nat) :
    clockEdges (List.replicate a quietPins ++ [acceptPins] ++ List.replicate b quietPins ++
      [answerPins (Config.cipher w.key w.ctr)]) (w.setPhase .requesting) = .next (v.setPhase .responding) := by
  have hwait : clockEdge quietPins (w.setPhase .requesting) = .next (w.setPhase .requesting) :=
    (clockEdge_quiet (s := w.setPhase .requesting) hoffer).trans (State.edgeByPhase_requesting_wait rfl rfl)
  have haccept : clockEdge acceptPins (w.setPhase .requesting) = .next (w.setPhase .awaiting) :=
    (clockEdge_of_no_offer (s := w.setPhase .requesting) rfl rfl hoffer).trans (State.edgeByPhase_accepted rfl rfl rfl)
  have hwait' : clockEdge quietPins (w.setPhase .awaiting) = .next (w.setPhase .awaiting) :=
    (clockEdge_quiet (s := w.setPhase .awaiting) hoffer).trans (State.edgeByPhase_awaiting_wait rfl rfl)
  have hanswer : clockEdge (answerPins (Config.cipher w.key w.ctr)) (w.setPhase .awaiting) =
      .next (v.setPhase .responding) := by
    obtain ⟨hrst, hoffered, hvalid⟩ := answerPins_frame (Config.cipher w.key w.ctr)
    have htaken := State.takeAnswer_of_eq (s := w.setPhase .awaiting) (answerPins_answer (Config.cipher w.key w.ctr))
    rw [clockEdge_of_no_offer (s := w.setPhase .awaiting) hrst hoffered hoffer,
      State.edgeByPhase_answered (s := w.setPhase .awaiting) rfl hvalid]
    exact htaken.trans (State.finish_setPhase hrun .awaiting)
  exact clockEdges_append (clockEdges_append (clockEdges_append (clockEdges_replicate_of_fixed hwait a)
    ((clockEdges_singleton _ _).trans haccept)) (clockEdges_replicate_of_fixed hwait' b))
    ((clockEdges_singleton _ _).trans hanswer)

/-- The last edge of the latency and, where the command asks the cipher, the request and its answer. -/
def performEdges (asks : Bool) (answer : Config.CipherAnswer) (a b : Nat) : List PinsIn :=
  quietPins :: if asks then
    List.replicate a quietPins ++ [acceptPins] ++ List.replicate b quietPins ++ [answerPins answer] else []

/-- A handshake in its four parts. -/
theorem handshake_eq_append (x : Transaction) (asks : Bool) (answer : Config.CipherAnswer) (a b c : Nat) :
    handshake x asks answer a b c = [offerPins x] ++ List.replicate Config.extraLatency quietPins ++
      performEdges asks answer a b ++ (List.replicate c quietPins ++ [takePins]) := by
  simp [handshake, performEdges, List.replicate_succ']

theorem clockEdges_performEdges {w v : State} (hoffer : w.offer = none) (hrun : runCommand w = .next v) (a b : Nat) :
    clockEdges (performEdges w.asksCipher (Config.cipher w.key w.ctr) a b) (w.setPhase (.working 0)) =
      .next (v.setPhase .responding) := by
  have hquiet := clockEdge_quiet (s := w.setPhase (.working 0)) hoffer
  cases hasks : w.asksCipher with
  | true =>
    have hrequest := hquiet.trans (State.edgeByPhase_request (s := w.setPhase (.working 0)) rfl hasks quietPins)
    exact (clockEdges_cons_next hrequest).trans (clockEdges_request hoffer hrun a b)
  | false =>
    have hfinish := hquiet.trans (State.edgeByPhase_finish (s := w.setPhase (.working 0)) rfl hasks quietPins)
    exact clockEdges_cons_next (hfinish.trans (State.finish_setPhase hrun _))

/-- The response waits until the host takes it. -/
theorem clockEdges_response {v : State} (hidle : v.phase = .idle) (hoffer : v.offer = none) (c : Nat) :
    clockEdges (List.replicate c quietPins ++ [takePins]) (v.setPhase .responding) = .next v := by
  have hwait : clockEdge quietPins (v.setPhase .responding) = .next (v.setPhase .responding) :=
    (clockEdge_quiet (s := v.setPhase .responding) hoffer).trans (State.edgeByPhase_responding_wait rfl rfl)
  have htake : clockEdge takePins (v.setPhase .responding) = .next (v.setPhase .idle) :=
    (clockEdge_of_no_offer (s := v.setPhase .responding) rfl rfl hoffer).trans (State.edgeByPhase_taken rfl rfl)
  rw [State.setPhase_self hidle] at htake
  exact clockEdges_append (clockEdges_replicate_of_fixed hwait c) ((clockEdges_singleton _ _).trans htake)

/-- Settles O53: the command transfer, the latency, the performing with or without the cipher, and the response, each from
the phase the one before has left; the last leaves the block idle, as the command transaction does. -/
theorem handshakeIsTransaction : Obligations.HandshakeIsTransaction := by
  intro s x a b c hidle hoffer
  obtain ⟨v, hrun⟩ := runCommand_completes (s.accept x)
  obtain ⟨hphase, -, -, hvoffer, -⟩ := runCommand_hostSideKept hrun
  have htransfer := (clockEdges_singleton _ _).trans (clockEdge_transfer hidle hoffer x)
  have hlatency := clockEdges_working (s := s.accept x) rfl Config.extraLatency
  have hperform := clockEdges_performEdges (w := s.accept x) rfl hrun a b
  have hresponse := clockEdges_response (hphase.trans hidle) hvoffer c
  rw [hrun, handshake_eq_append]
  exact clockEdges_append (clockEdges_append (clockEdges_append htransfer hlatency) hperform) hresponse

end Sys2Proof.Machine
end

/-! ## A stuck block: 70_reset R247 -/

section
namespace Sys2Proof.Machine

theorem clockEdges_cons_eq_next {p : PinsIn} {ps : List PinsIn} {s t : State} (h : clockEdges (p :: ps) s = .next t) :
    ∃ u, clockEdge p s = .next u ∧ clockEdges ps u = .next t := by
  cases hp : clockEdge p s with
  | next u => exact ⟨u, rfl, (clockEdges_cons_next hp).symm.trans h⟩
  | fault a => cases a
  | refused a => simp [clockEdges, hp] at h

/-- An edge with no reset and no answer leaves a block that awaits one as it is, but for the record of the host's offer. -/
theorem clockEdge_awaiting {s t : State} {p : PinsIn} (hp : s.phase = .awaiting) (hrst : p.rst = false)
    (hanswer : p.eRspValid = false) (h : clockEdge p s = .next t) : t = s.setOffer p.offered := by
  have hedge := clockEdge_next_live hrst h
  rw [State.edgeByPhase_awaiting_wait (s := s.setOffer p.offered) hp hanswer] at hedge
  cases hedge
  rfl

theorem clockEdges_awaiting {s t : State} {ps : List PinsIn} (hp : s.phase = .awaiting)
    (hps : ∀ p ∈ ps, p.rst = false ∧ p.eRspValid = false) (h : clockEdges ps s = .next t) :
    t.phase = .awaiting ∧ SameBlock t s := by
  induction ps generalizing s with
  | nil =>
    cases h
    exact ⟨hp, .refl _⟩
  | cons p ps ih =>
    obtain ⟨u, hedge, hrest⟩ := clockEdges_cons_eq_next h
    obtain ⟨hrst, hanswer⟩ := hps p (by simp)
    obtain rfl := clockEdge_awaiting hp hrst hanswer hedge
    exact ih (s := s.setOffer p.offered) hp (fun q hq => hps q (by simp [hq])) hrest

/-- Settles O56: by induction on the edges, none of which ends the wait; and a whole command waits with the block. -/
theorem stuckWithoutAnswer : Obligations.StuckWithoutAnswer := by
  refine ⟨fun s t ps hp hps h => ?_, fun s k hp hoffer => ?_, fun s x hp => commandMove_of_busy (by simp [hp]) x⟩
  · obtain ⟨hphase, hsame⟩ := clockEdges_awaiting hp hps h
    exact ⟨hphase, hsame, by simp [State.outputs, hphase], by simp [State.outputs, hphase]⟩
  · have hwait := (clockEdge_quiet hoffer).trans (State.edgeByPhase_awaiting_wait hp rfl)
    exact clockEdges_replicate_of_fixed hwait k

end Sys2Proof.Machine
end

/-! ## The handshakes and the cipher requests: 20_memory R53 and R54 -/

section
namespace Sys2Proof.Machine

/-- While a command is in progress no edge without reset samples another, and only the response's transfer ends it. -/
theorem State.edgeByPhase_busy {s t : State} {p : PinsIn} (hbusy : s.phase ≠ .idle) (h : s.edgeByPhase p = .next t) :
    t.cmd = s.cmd ∧ t.din = s.din ∧ (t.phase = .idle ↔ s.phase = .responding ∧ p.rspReady = true) := by
  obtain ⟨hp, -⟩ | ⟨left, hp, rfl⟩ | ⟨hp, -, rfl⟩ | ⟨hp, -, hfin⟩ | ⟨hp, -, -, rfl⟩ | ⟨hp, -, -, hfin⟩ |
    ⟨hp, hready, rfl⟩ | ⟨hp, rfl⟩ := State.edgeByPhase_next h
  · exact absurd hp hbusy
  · simp [hp]
  · simp [hp]
  · obtain ⟨hphase, hcmd, hdin⟩ := State.finish_frame hfin
    simp [hphase, hcmd, hdin, hp]
  · simp [hp]
  · obtain ⟨hphase, hcmd, hdin⟩ := State.finish_frame hfin
    obtain ⟨hp, -⟩ | hp := hp <;> simp [hphase, hcmd, hdin, hp]
  · simp [hp, hready]
  · refine ⟨rfl, rfl, iff_of_false hbusy ?_⟩
    rintro ⟨hresp, hready⟩
    simp [hresp, hready] at hp

/-- Settles O54: each phase's edge, with the outputs of the phase before it and the phase after it. -/
theorem handshakeRulesOfR53 : Obligations.HandshakeRulesOfR53 := by
  refine ⟨fun s rst => State.outputs_cmdReady, fun s t p hrst hready hvalid h => ?_, fun s t p hrst h hbusy => ?_,
    fun s t p a hrst h hrsp hwait => ?_, fun s t p q hrst h hreq hwait => ?_⟩ <;>
    have hedge := clockEdge_next_live hrst h
  · obtain ⟨-, hidle⟩ := State.outputs_cmdReady.1 hready
    rw [State.edgeByPhase_idle (s := s.setOffer p.offered) hidle hvalid] at hedge
    cases hedge
    exact ⟨rfl, rfl, rfl, rfl⟩
  · have hne : s.phase ≠ .idle := by simpa [State.outputs] using hbusy
    obtain ⟨hcmd, hdin, hphase⟩ := State.edgeByPhase_busy (s := s.setOffer p.offered) hne hedge
    exact ⟨hcmd, hdin, State.outputs_cmdReady.trans (by simpa using hphase)⟩
  · obtain ⟨hphase, ha⟩ := State.outputs_rsp.1 hrsp
    rw [State.edgeByPhase_responding_wait (s := s.setOffer p.offered) hphase hwait] at hedge
    cases hedge
    exact State.outputs_rsp.2 ⟨hphase, ha⟩
  · obtain ⟨hphase, hq⟩ := State.outputs_eReq.1 hreq
    rw [State.edgeByPhase_requesting_wait (s := s.setOffer p.offered) hphase hwait] at hedge
    cases hedge
    exact State.outputs_eReq.2 ⟨hphase, hq⟩

/-- The edge that leaves a request on offer: the end of a latency whose command asks the cipher, or a request that waits. -/
theorem State.edgeByPhase_to_requesting {s t : State} {p : PinsIn} (h : s.edgeByPhase p = .next t)
    (ht : t.phase = .requesting) :
    (s.phase = .working 0 ∧ s.asksCipher = true) ∨ (s.phase = .requesting ∧ p.eReqReady = false) := by
  obtain ⟨-, -, rfl⟩ | ⟨left, -, rfl⟩ | ⟨hp, hasks, -⟩ | ⟨-, -, hfin⟩ | ⟨-, -, -, rfl⟩ | ⟨-, -, -, hfin⟩ |
    ⟨-, -, rfl⟩ | ⟨hp, rfl⟩ := State.edgeByPhase_next h
  · cases ht
  · cases ht
  · exact .inl ⟨hp, hasks⟩
  · obtain ⟨hphase, -⟩ := State.finish_frame hfin
    cases hphase.symm.trans ht
  · cases ht
  · obtain ⟨hphase, -⟩ := State.finish_frame hfin
    cases hphase.symm.trans ht
  · cases ht
  · exact .inr ⟨ht, by simpa [ht] using hp⟩

/-- A request is on offer after an edge only if it was made at this edge, or was on offer and not accepted. -/
theorem clockEdge_eReq {s t : State} {p : PinsIn} (hrst : p.rst = false) (h : clockEdge p s = .next t)
    (hreq : (t.outputs false).eReq ≠ none) :
    (s.phase = .working 0 ∧ s.asksCipher = true) ∨ (s.phase = .requesting ∧ p.eReqReady = false) := by
  refine State.edgeByPhase_to_requesting (s := s.setOffer p.offered) (clockEdge_next_live hrst h) ?_
  by_contra hp
  exact hreq (State.outputs_eReq_of_ne hp)

/-- Settles O55: the invariant has the checks of a request on offer, and an edge leaves one on offer only if it makes one or
it waits. -/
theorem cipherRequestsOfR54 : Obligations.CipherRequestsOfR54 := by
  refine ⟨fun s q hinv hreq => ?_, fun s t p hrst h => ⟨fun hreq hready => ?_, fun hp => ?_, fun hasks hp => ?_⟩,
    fun s p hp hasks hrst hkeeps => ?_, fun s => State.asksCipher_iff⟩
  · obtain ⟨hp, hq⟩ := State.outputs_eReq.1 hreq
    exact ⟨hq.symm, State.asksCipher_iff.1 (hinv.request_asked (.inl hp))⟩
  · by_contra hnext
    obtain ⟨hp, -⟩ | ⟨-, hwait⟩ := clockEdge_eReq hrst h hnext
    · exact hreq (State.outputs_eReq_of_ne (by simp [hp]))
    · simp [hready] at hwait
  · by_contra hnext
    obtain ⟨hp', -⟩ | ⟨hp', -⟩ := clockEdge_eReq hrst h hnext <;> simp [hp'] at hp
  · by_contra hnext
    obtain ⟨-, hasks'⟩ | ⟨hp', -⟩ := clockEdge_eReq hrst h hnext
    · simp [hasks] at hasks'
    · exact hp hp'
  · exact ⟨_, (clockEdge_live hrst hkeeps).trans (State.edgeByPhase_request (s := s.setOffer p.offered) hp hasks p), rfl⟩

end Sys2Proof.Machine
end

/-! ## Support: a value as its bytes

00_scope R7: the bytes of a value determine it, and a byte sequence denotes its bytes as base-256 digits. -/

section
namespace Sys2Proof.Machine

/-! A value and its bytes. -/

theorem getLsbD_byte (v : Word) (k : Nat) {j : Nat} (hj : j < 8) : (byte v k).getLsbD j = v.getLsbD (120 - 8 * k + j) := by
  simp [byte, hj]

theorem eq_of_byte_eq {u v : Word} (h : ∀ k < 16, byte u k = byte v k) : u = v := by
  refine BitVec.eq_of_getLsbD_eq fun j hj => ?_
  have hbit : ∀ w : Word, w.getLsbD j = (byte w (15 - j / 8)).getLsbD (j % 8) := by
    intro w
    rw [getLsbD_byte w _ (Nat.mod_lt j (by decide)), show 120 - 8 * (15 - j / 8) + j % 8 = j by omega]
  rw [hbit u, hbit v, h _ (by omega)]

@[simp] theorem length_bytes (v : Word) : (bytes v).length = 16 := by simp [bytes]

theorem getElem_bytes (v : Word) {k : Nat} (h : k < (bytes v).length) : (bytes v)[k] = byte v k := by
  simp [bytes]

/-! A byte sequence and its value. -/

theorem ofBytes_append_singleton (bs : List Byte) (b : Byte) :
    ofBytes (bs ++ [b]) = ofBytes bs <<< 8 ||| b.setWidth 128 := by
  simp [ofBytes]

/-- A byte put in at the end is the last byte; the others move up by one. -/
theorem byte_shift_or (v : Word) (b : Byte) {k : Nat} (hk : k < 16) :
    byte (v <<< 8 ||| b.setWidth 128) k = if k = 15 then b else byte v (k + 1) := by
  refine BitVec.eq_of_getLsbD_eq fun j hj => ?_
  rw [getLsbD_byte _ _ hj, BitVec.getLsbD_or, BitVec.getLsbD_shiftLeft, BitVec.getLsbD_setWidth]
  split
  · subst k
    simp [hj, show j < 128 by omega]
  · have hhigh : b.getLsbD (120 - 8 * k + j) = false := b.getLsbD_of_ge _ (by omega)
    rw [getLsbD_byte _ _ hj, hhigh, show 120 - 8 * k + j - 8 = 120 - 8 * (k + 1) + j by omega]
    simp [show 120 - 8 * k + j < 128 by omega, show ¬ 120 - 8 * k + j < 8 by omega]

/-- The elements of a sequence are the last bytes of its value. -/
theorem byte_ofBytes (bs : List Byte) (hlen : bs.length ≤ 16) {k : Nat} (hk : k < bs.length) :
    byte (ofBytes bs) (16 - bs.length + k) = bs[k] := by
  induction bs using List.reverseRecOn generalizing k with
  | nil => simp at hk
  | append_singleton bs b ih =>
    simp only [List.length_append, List.length_singleton] at hlen hk ⊢
    rw [ofBytes_append_singleton, byte_shift_or _ _ (by omega)]
    by_cases hlast : k = bs.length
    · subst hlast
      rw [if_pos (by omega), List.getElem_concat_length rfl]
    · have hk' : k < bs.length := by omega
      rw [if_neg (by omega), show 16 - (bs.length + 1) + k + 1 = 16 - bs.length + k by omega, ih (by omega) hk',
        List.getElem_append_left hk']

theorem bytes_ofBytes {bs : List Byte} (hlen : bs.length = 16) : bytes (ofBytes bs) = bs := by
  refine List.ext_getElem (by simp [hlen]) fun k hk hk' => ?_
  rw [getElem_bytes]
  simpa [hlen] using byte_ofBytes bs hlen.le hk'

theorem ofBytes_bytes (v : Word) : ofBytes (bytes v) = v := by
  refine eq_of_byte_eq fun k hk => ?_
  have hbyte := byte_ofBytes (bytes v) (by simp) (k := k) (by simpa using hk)
  simpa [getElem_bytes] using hbyte

/-! The number a byte sequence denotes, its length not limited to that of a value. -/

/-- The bytes as base-256 digits, the first the most significant. -/
def bytesNat : List Byte → Nat
  | [] => 0
  | b :: bs => b.toNat * 256 ^ bs.length + bytesNat bs

theorem bytesNat_lt (bs : List Byte) : bytesNat bs < 256 ^ bs.length := by
  induction bs with
  | nil => simp [bytesNat]
  | cons b bs ih =>
    have hb : b.toNat + 1 ≤ 256 := b.isLt
    calc b.toNat * 256 ^ bs.length + bytesNat bs < (b.toNat + 1) * 256 ^ bs.length := by
          rw [Nat.add_mul, Nat.one_mul]; exact Nat.add_lt_add_left ih _
      _ ≤ 256 ^ (bs.length + 1) := by
          rw [Nat.pow_succ, Nat.mul_comm]; exact Nat.mul_le_mul_left _ hb

theorem bytesNat_append_singleton (bs : List Byte) (b : Byte) : bytesNat (bs ++ [b]) = bytesNat bs * 256 + b.toNat := by
  induction bs with
  | nil => simp [bytesNat]
  | cons a bs ih =>
    simp only [List.cons_append, bytesNat, ih, List.length_append, List.length_singleton]
    ring

/-- Each digit with its weight. -/
theorem bytesNat_eq_sum (bs : List Byte) :
    bytesNat bs = ∑ k ∈ Finset.range bs.length, (bs.getD k 0#8).toNat * 256 ^ (bs.length - 1 - k) := by
  induction bs with
  | nil => rfl
  | cons b bs ih =>
    rw [List.length_cons, Finset.sum_range_succ', bytesNat, ih, Nat.add_comm]
    refine congrArg₂ (· + ·) (Finset.sum_congr rfl fun k hk => ?_) (by simp)
    rw [List.getD_cons_succ, show bs.length + 1 - 1 - (k + 1) = bs.length - 1 - k by omega]

/-- A value shifted up, and one put in below it, add. -/
theorem toNat_shiftLeft_or (v : Word) {w : Word} {r : Nat} (hr : r ≤ 128) (hw : w.toNat < 2 ^ r) :
    (v <<< r ||| w).toNat = v.toNat * 2 ^ r % 2 ^ 128 + w.toNat := by
  have hshift : v.toNat * 2 ^ r % 2 ^ 128 = (v.toNat % 2 ^ (128 - r)) <<< r := by
    rw [Nat.shiftLeft_eq, ← Nat.mul_mod_mul_right, ← Nat.pow_add, Nat.sub_add_cancel hr]
  rw [BitVec.toNat_or, BitVec.toNat_shiftLeft, Nat.shiftLeft_eq, hshift, Nat.shiftLeft_add_eq_or_of_lt hw]

theorem toNat_shift_or (v : Word) (b : Byte) :
    (v <<< 8 ||| b.setWidth 128).toNat = (v.toNat * 256 + b.toNat) % 2 ^ 128 := by
  have hb : (b.setWidth 128).toNat = b.toNat := BitVec.toNat_setWidth_of_le (by decide)
  have hsum := toNat_shiftLeft_or v (w := b.setWidth 128) (r := 8) (by decide) (hb ▸ b.isLt)
  rw [hb] at hsum
  rw [← Nat.mod_eq_of_lt (v <<< 8 ||| b.setWidth 128).isLt, hsum, Nat.mod_add_mod,
    show 2 ^ 8 = 256 from rfl]

theorem toNat_ofBytes (bs : List Byte) : (ofBytes bs).toNat = bytesNat bs % 2 ^ 128 := by
  induction bs using List.reverseRecOn with
  | nil => rfl
  | append_singleton bs b ih =>
    rw [ofBytes_append_singleton, toNat_shift_or, bytesNat_append_singleton, ih, Nat.add_mod, Nat.mod_mul_mod, ← Nat.add_mod]

/-- Sixteen bytes denote a number below 2^128, so it is the value. -/
theorem toNat_ofBytes_of_length {bs : List Byte} (hlen : bs.length = 16) : (ofBytes bs).toNat = bytesNat bs := by
  rw [toNat_ofBytes, Nat.mod_eq_of_lt]
  simpa [hlen] using bytesNat_lt bs

theorem bytesNat_bytes (v : Word) : bytesNat (bytes v) = v.toNat := by
  rw [← toNat_ofBytes_of_length (length_bytes v), ofBytes_bytes]

end Sys2Proof.Machine
end

/-! ## Byte sequences, and addition and rotation byte by byte: 00_scope R7, 40_arithmetic R114 and R120 -/

section
namespace Sys2Proof.Machine

/-- Settles O40: the elements of a sequence are the bytes of its value, and they are its base-256 digits. -/
theorem byteSequenceOfR7 : Obligations.ByteSequenceOfR7 := by
  refine ⟨fun bs hlen => ⟨?_, bytes_ofBytes hlen⟩, ofBytes_bytes, fun v k j _ hj => getLsbD_byte v k hj⟩
  rw [toNat_ofBytes_of_length hlen, bytesNat_eq_sum, hlen]
  refine Finset.sum_congr rfl fun k _ => ?_
  rw [show 16 - 1 - k = 15 - k by omega, Nat.pow_mul]

/-! Addition (R114). -/

@[simp] theorem length_carryChain (ps : List (Byte × Byte)) : (carryChain ps).2.length = ps.length := by
  induction ps with
  | nil => rfl
  | cons p ps ih => simp [carryChain, ih]

/-- The carry chain adds the two numbers: its carry stands above the bytes of the sum. -/
theorem carryChain_sum (ps : List (Byte × Byte)) :
    (carryChain ps).1 * 256 ^ ps.length + bytesNat (carryChain ps).2 =
      bytesNat (ps.map Prod.fst) + bytesNat (ps.map Prod.snd) := by
  induction ps with
  | nil => rfl
  | cons p ps ih =>
    obtain ⟨a, b⟩ := p
    simp only [carryChain, bytesNat, List.map_cons, List.length_cons, List.length_map, length_carryChain,
      BitVec.toNat_ofNat]
    have hbyte := Nat.div_add_mod (a.toNat + b.toNat + (carryChain ps).1) 256
    generalize (a.toNat + b.toNat + (carryChain ps).1) / 256 = carry,
      (a.toNat + b.toNat + (carryChain ps).1) % 256 = digit at hbyte
    calc carry * 256 ^ (ps.length + 1) + (digit * 256 ^ ps.length + bytesNat (carryChain ps).2)
        = (256 * carry + digit) * 256 ^ ps.length + bytesNat (carryChain ps).2 := by ring
      _ = (a.toNat + b.toNat) * 256 ^ ps.length +
            ((carryChain ps).1 * 256 ^ ps.length + bytesNat (carryChain ps).2) := by rw [hbyte]; ring
      _ = _ := by rw [ih]; ring

/-- Settles O42: with the carry out of byte 0 discarded the carry chain's number is the sum modulo 2^128. -/
theorem carryChainOfR114 : Obligations.CarryChainOfR114 := by
  refine fun a b => ⟨BitVec.eq_of_toNat_eq ?_, BitVec.toNat_add a b⟩
  have hsum := carryChain_sum ((bytes a).zip (bytes b))
  rw [List.map_fst_zip (by simp), List.map_snd_zip (by simp), bytesNat_bytes, bytesNat_bytes] at hsum
  rw [addBytes, toNat_ofBytes, add128, BitVec.toNat_add, ← hsum]
  simp

/-! Rotation (R120). -/

/-- A bit of the rotated value, counted back by n. -/
theorem getLsbD_rotl128_eq (v : Word) (n : Nat) {j : Nat} (hj : j < 128) :
    (rotl128 v n).getLsbD j = v.getLsbD ((j + (128 - n % 128)) % 128) := by
  have hbit := getLsbD_rotl128 v n (Nat.mod_lt (j + (128 - n % 128)) (by decide))
  rwa [show ((j + (128 - n % 128)) % 128 + n) % 128 = j by omega] at hbit

theorem byte_rotl128 (v : Word) (n : Nat) {k : Nat} (hk : k < 16) : byte (rotl128 v n) k = rotlByte v n k := by
  refine BitVec.eq_of_getLsbD_eq fun j hj => ?_
  rw [getLsbD_byte _ _ hj, getLsbD_rotl128_eq v n (by omega)]
  simp only [rotlByte]
  by_cases hbits : n % 128 % 8 = 0
  · rw [if_pos hbits, getLsbD_byte _ _ hj]
    congr 1
    omega
  · rw [if_neg hbits, BitVec.getLsbD_or, BitVec.getLsbD_shiftLeft, BitVec.getLsbD_ushiftRight]
    by_cases hlow : j < n % 128 % 8
    · rw [getLsbD_byte _ _ (show 8 - n % 128 % 8 + j < 8 by omega)]
      simp only [hlow, decide_true, Bool.not_true, Bool.and_false, Bool.false_and, Bool.false_or]
      congr 1
      omega
    · rw [getLsbD_byte _ _ (show j - n % 128 % 8 < 8 by omega),
        (byte v (((k + 1) % 16 + n % 128 / 8) % 16)).getLsbD_of_ge (8 - n % 128 % 8 + j) (by omega)]
      simp only [hj, hlow, decide_true, decide_false, Bool.not_false, Bool.true_and, Bool.or_false]
      congr 1
      omega

theorem toNat_rotl128 (v : Word) (n : Nat) :
    (rotl128 v n).toNat = v.toNat * 2 ^ (n % 128) % 2 ^ 128 + v.toNat / 2 ^ (128 - n % 128) := by
  have hlt := v.isLt
  by_cases hn : n % 128 = 0
  · rw [rotl128_eq_self hn, hn, Nat.pow_zero, Nat.mul_one, Nat.mod_eq_of_lt hlt, Nat.sub_zero, Nat.div_eq_of_lt hlt,
      Nat.add_zero]
  · have hrot : rotl128 v n = v <<< (n % 128) ||| v >>> (128 - n % 128) := if_neg hn
    have hlow : (v >>> (128 - n % 128)).toNat = v.toNat / 2 ^ (128 - n % 128) := by
      rw [BitVec.toNat_ushiftRight, Nat.shiftRight_eq_div_pow]
    have hfits : v.toNat / 2 ^ (128 - n % 128) < 2 ^ (n % 128) := by
      rw [Nat.div_lt_iff_lt_mul (by positivity), ← Nat.pow_add, show n % 128 + (128 - n % 128) = 128 by omega]
      exact hlt
    rw [hrot, toNat_shiftLeft_or v (by omega) (hlow ▸ hfits), hlow]

/-- Settles O43: the forms agree bit by bit, hence byte by byte, and the two shifted parts of the value add. -/
theorem rotateFormsOfR120 : Obligations.RotateFormsOfR120 := by
  refine fun v n => ⟨?_, fun k hk => byte_rotl128 v n hk, fun k hk => getLsbD_rotl128 v n hk, toNat_rotl128 v n⟩
  have hbytes : (List.range 16).map (rotlByte v n) = bytes (rotl128 v n) :=
    List.map_congr_left fun k hk => (byte_rotl128 v n (List.mem_range.1 hk)).symm
  rw [rotlBytes, hbytes, ofBytes_bytes]

end Sys2Proof.Machine
end

/-! ## Support: the assembler's lines and numbers

30_encoding R87 with log 15: blanks around a text, the parts between commas, and digits. -/

section
namespace Sys2Proof.Machine

/-! Blanks around a text. -/

theorem trimBlanks_eq_rdropWhile (cs : List Char) : trimBlanks cs = (cs.dropWhile isBlank).rdropWhile isBlank := rfl

theorem trimBlanks_blank_cons {ch : Char} (h : isBlank ch = true) (cs : List Char) :
    trimBlanks (ch :: cs) = trimBlanks cs := by
  rw [trimBlanks_eq_rdropWhile, List.dropWhile_cons_of_pos h, trimBlanks_eq_rdropWhile]

/-- A text between two characters that are no blanks has none around it. -/
theorem trimBlanks_eq_self {cs xs ys : List Char} {a b : Char} (hfirst : cs = a :: xs) (ha : isBlank a = false)
    (hlast : cs = ys ++ [b]) (hb : isBlank b = false) : trimBlanks cs = cs := by
  have hdrop : cs.dropWhile isBlank = cs := by rw [hfirst, List.dropWhile_cons_of_neg (by simp [ha])]
  rw [trimBlanks_eq_rdropWhile, hdrop, hlast, List.rdropWhile_concat_neg isBlank _ _ (by simp [hb])]

/-- A text without blanks around it ends in a character that is none. -/
theorem exists_last_of_trimBlanks_eq {cs : List Char} (hne : cs ≠ []) (h : trimBlanks cs = cs) :
    ∃ ys b, cs = ys ++ [b] ∧ isBlank b = false := by
  have hlast := List.rdropWhile_last_not isBlank (cs.dropWhile isBlank) (by rwa [← trimBlanks_eq_rdropWhile, h])
  simp only [← trimBlanks_eq_rdropWhile, h] at hlast
  exact ⟨cs.dropLast, cs.getLast hne, (List.dropLast_append_getLast hne).symm, by simpa using hlast⟩

/-! The parts between commas. -/

theorem splitAtChar_eq_splitOnP (sep : Char) (cs : List Char) :
    splitAtChar sep cs = (cs.splitOnP (· == sep)).map trimBlanks := by
  refine congrArg (List.map trimBlanks) ?_
  induction cs with
  | nil => simp
  | cons ch cs ih =>
    rw [List.foldr_cons, ih, List.splitOnP_cons_eq_if_modifyHead]
    split
    · rfl
    · cases hparts : cs.splitOnP (· == sep) with
      | nil => exact absurd hparts (List.splitOnP_ne_nil _ _)
      | cons part rest => rfl

theorem splitAtChar_of_notMem {sep : Char} {cs : List Char} (h : sep ∉ cs) : splitAtChar sep cs = [trimBlanks cs] := by
  rw [splitAtChar_eq_splitOnP, List.splitOnP_eq_singleton (by grind), List.map_singleton]

theorem splitAtChar_append {sep : Char} {cs : List Char} (h : sep ∉ cs) (rest : List Char) :
    splitAtChar sep (cs ++ sep :: rest) = trimBlanks cs :: splitAtChar sep rest := by
  rw [splitAtChar_eq_splitOnP, List.splitOnP_append_cons_of_forall_mem (by grind) sep (by simp), List.map_cons,
    splitAtChar_eq_splitOnP]

theorem commaList_cons_cons (o o' : List Char) (os : List (List Char)) :
    commaList (o :: o' :: os) = o ++ ',' :: ' ' :: commaList (o' :: os) := rfl

/-- The operands are the parts between the commas, each with the blank before it taken off. -/
theorem splitAtChar_commaList {ops : List (List Char)} (hne : ops ≠ []) (hops : ∀ o ∈ ops, OperandText o) :
    splitAtChar ',' (' ' :: commaList ops) = ops := by
  induction ops with
  | nil => exact absurd rfl hne
  | cons o os ih =>
    obtain ⟨-, hcomma, -, htrim⟩ := hops o (by simp)
    have hcomma' : ',' ∉ ' ' :: o := by simp [hcomma]
    have htrim' : trimBlanks (' ' :: o) = o := (trimBlanks_blank_cons rfl o).trans htrim
    cases os with
    | nil => rw [commaList, splitAtChar_of_notMem hcomma', htrim']
    | cons o' os =>
      rw [commaList_cons_cons, ← List.cons_append, splitAtChar_append hcomma', htrim',
        ih (by simp) fun p hp => hops p (by simp [hp])]

theorem semicolon_notMem_commaList {ops : List (List Char)} (hops : ∀ o ∈ ops, OperandText o) :
    ';' ∉ commaList ops := by
  induction ops with
  | nil => simp [commaList]
  | cons o os ih =>
    obtain ⟨-, -, hsemi, -⟩ := hops o (by simp)
    cases os with
    | nil => exact hsemi
    | cons o' os =>
      rw [commaList_cons_cons]
      simp [hsemi, ih fun p hp => hops p (by simp [hp])]

theorem exists_last_of_commaList {ops : List (List Char)} (hne : ops ≠ []) (hops : ∀ o ∈ ops, OperandText o) :
    ∃ ys b, commaList ops = ys ++ [b] ∧ isBlank b = false := by
  induction ops with
  | nil => exact absurd rfl hne
  | cons o os ih =>
    cases os with
    | nil =>
      obtain ⟨hnonempty, -, -, htrim⟩ := hops o (by simp)
      exact exists_last_of_trimBlanks_eq hnonempty htrim
    | cons o' os =>
      obtain ⟨ys, b, hlast, hb⟩ := ih (by simp) fun p hp => hops p (by simp [hp])
      exact ⟨o ++ ',' :: ' ' :: ys, b, by rw [commaList_cons_cons, hlast]; simp, hb⟩

/-! A line. -/

/-- A comment is dropped, whatever is in it. -/
theorem dropComment_append {body tail : List Char} (hbody : ';' ∉ body) (htail : tail = [] ∨ tail.head? = some ';') :
    dropComment (body ++ tail) = body := by
  rw [dropComment, List.takeWhile_append_of_pos (by grind)]
  obtain rfl | hhead := htail
  · simp
  · cases tail with
    | nil => simp
    | cons ch cs =>
      cases hhead
      simp

theorem assembleLine_of_text {line text : List Char} (htext : trimBlanks (dropComment line) = text) (hne : text ≠ []) :
    assembleLine line = asmMnemonic ((text.takeWhile fun ch => !isBlank ch).map Char.toUpper)
      (splitAtChar ',' (text.dropWhile fun ch => !isBlank ch)) := by
  subst htext
  unfold assembleLine
  split
  · exact absurd ‹_› hne
  · rfl

theorem assembleLine_mnemonic {name tail : List Char} {ops : List (List Char)} (hname : name ≠ [])
    (hchars : ∀ ch ∈ name, isBlank ch = false ∧ ch ≠ ';') (hne : ops ≠ []) (hops : ∀ o ∈ ops, OperandText o)
    (htail : tail = [] ∨ tail.head? = some ';') :
    assembleLine (name ++ ' ' :: commaList ops ++ tail) = asmMnemonic (name.map Char.toUpper) ops := by
  have hsemi : ';' ∉ name ++ ' ' :: commaList ops := by
    have hname' : ';' ∉ name := fun h => (hchars ';' h).2 rfl
    simp [hname', semicolon_notMem_commaList hops]
  have htext : trimBlanks (dropComment (name ++ ' ' :: commaList ops ++ tail)) = name ++ ' ' :: commaList ops := by
    rw [dropComment_append hsemi htail]
    obtain ⟨a, as, rfl⟩ := List.exists_cons_of_ne_nil hname
    obtain ⟨ys, b, hlast, hb⟩ := exists_last_of_commaList hne hops
    exact trimBlanks_eq_self (a := a) (ys := a :: as ++ ' ' :: ys) rfl (hchars a (by simp)).1 (by simp [hlast]) hb
  have hword : ∀ ch ∈ name, (!isBlank ch) = true := fun ch h => by simp [(hchars ch h).1]
  have hblank : (!isBlank ' ') = false := rfl
  rw [assembleLine_of_text htext (by simp), List.takeWhile_append_of_pos hword, List.dropWhile_append_of_pos hword]
  simp only [List.takeWhile_cons, List.dropWhile_cons, hblank, Bool.false_eq_true, if_false, List.append_nil,
    splitAtChar_commaList hne hops]

theorem assembleLine_empty : assembleLine [] = some [] := by decide

theorem assembleLine_comment (comment : List Char) : assembleLine (';' :: comment) = some [] := by
  have hdrop : dropComment (';' :: comment) = [] := dropComment_append (body := []) (by simp) (.inr rfl)
  unfold assembleLine
  rw [hdrop]
  rfl

/-! Digits and numbers. -/

theorem digitsValue_of_ne_nil {cs : List Char} (h : cs ≠ []) (base : Nat) :
    digitsValue base cs =
      cs.foldl (fun acc ch => acc.bind fun v => (digitValue base ch).map fun d => v * base + d) (some 0) := by
  cases cs with
  | nil => exact absurd rfl h
  | cons ch cs => rfl

theorem digitsValue_singleton (base : Nat) (ch : Char) : digitsValue base [ch] = digitValue base ch := by
  rw [digitsValue_of_ne_nil (by simp)]
  cases hd : digitValue base ch <;> simp [hd]

/-- A last digit after other digits counts its value, and they count once more by the base. -/
theorem digitsValue_append_singleton {cs : List Char} (h : cs ≠ []) (base : Nat) (ch : Char) :
    digitsValue base (cs ++ [ch]) =
      (digitsValue base cs).bind fun v => (digitValue base ch).map fun d => v * base + d := by
  rw [digitsValue_of_ne_nil (by simp), digitsValue_of_ne_nil h, List.foldl_append, List.foldl_cons, List.foldl_nil]

/-- A number ends in a digit. -/
theorem exists_last_digit {base m : Nat} {cs : List Char} (h : digitsValue base cs = some m) :
    ∃ ys ch d, cs = ys ++ [ch] ∧ digitValue base ch = some d := by
  induction cs using List.reverseRecOn with
  | nil => simp [digitsValue] at h
  | append_singleton ys ch _ =>
    cases hd : digitValue base ch with
    | some d => exact ⟨ys, ch, d, rfl, hd⟩
    | none =>
      cases ys with
      | nil => cases hd.symm.trans ((digitsValue_singleton base ch).symm.trans h)
      | cons y ys =>
        rw [digitsValue_append_singleton (List.cons_ne_nil y ys), hd] at h
        simp at h

theorem isBlank_eq_false_of_digit {ch : Char} {d : Nat} (h : digitValue 16 ch = some d) : isBlank ch = false := by
  cases hb : isBlank ch with
  | false => rfl
  | true =>
    obtain rfl | rfl : ch = ' ' ∨ ch = '\t' := by simpa [isBlank] using hb
    · exact absurd h (by simp [digitValue])
    · exact absurd h (by simp [digitValue])

theorem parseNumber_of_not_hex {cs : List Char} (h : cs.take 2 ≠ ['0', 'x']) : parseNumber cs = digitsValue 10 cs := by
  unfold parseNumber
  split
  · exact absurd rfl h
  · rfl

theorem parseImm_of_parseNumber {cs : List Char} {m : Nat} (h : parseNumber cs = some m) :
    parseImm cs = if m ≤ 4294967295 then some (BitVec.ofNat 32 m) else none := by
  rw [parseImm, h, Option.bind_some]

/-! Registers. -/

/-- A decimal digit is the character its value stands for. -/
theorem eq_ofNat_of_digitValue {ch : Char} {v : Nat} (h : digitValue 10 ch = some v) : ch = Char.ofNat (48 + v) := by
  unfold digitValue at h
  by_cases hdec : '0' ≤ ch ∧ ch ≤ '9'
  · have hlow : 48 ≤ ch.toNat := hdec.1
    simp only [hdec, and_self, if_true] at h
    split at h
    · cases h
      rw [show '0'.toNat = 48 from rfl, Nat.add_sub_cancel' hlow, Char.ofNat_toNat]
    · cases h
  · by_cases hlower : 'a' ≤ ch ∧ ch ≤ 'f'
    · simp [hdec, hlower] at h
    · by_cases hupper : 'A' ≤ ch ∧ ch ≤ 'F'
      · simp [hdec, hlower, hupper] at h
      · simp [hdec, hlower, hupper] at h

theorem parseReg_eq_some_iff {cs : List Char} {i : RegIdx} : parseReg cs = some i ↔ cs = regText i := by
  refine ⟨fun h => ?_, fun h => h ▸ parseReg_regText i⟩
  unfold parseReg at h
  split at h
  · rename_i ch
    obtain ⟨v, hv, hi⟩ := Option.bind_eq_some_iff.1 h
    split at hi
    · cases hi
      rw [eq_ofNat_of_digitValue hv, regText]
    · cases hi
  · cases h

/-! The rows of the table. -/

theorem asm3_regText (mk : RegIdx → RegIdx → RegIdx → List Instr) (a b c : RegIdx) :
    asm3 mk [regText a, regText b, regText c] = some (asmWords (mk a b c)) := by
  simp [asm3]

theorem asmMnemonic_load (ops : List Char) : asmMnemonic "LOAD".toList [ops] = parseLoad ops := rfl

theorem splitArrow_regText (rd : RegIdx) : splitArrow (regText rd) = (regText rd, none) := by
  revert rd; decide

theorem assemblesTo_load (rd : RegIdx) : AssemblesTo "LOAD" [regText rd] [.load rd] := by
  rw [AssemblesTo, asmMnemonic_load, parseLoad]
  simp [splitArrow_regText]

theorem cutArrow_cons {ch : Char} (h : ch ≠ '<') (cs : List Char) :
    cutArrow (ch :: cs) = (ch :: (cutArrow cs).1, (cutArrow cs).2) := by
  simp [cutArrow, h]

/-- A text is cut at its first arrow. -/
theorem cutArrow_append {cs : List Char} (h : '<' ∉ cs) (rest : List Char) :
    cutArrow (cs ++ '<' :: '-' :: rest) = (cs, some rest) := by
  induction cs with
  | nil => simp [cutArrow]
  | cons ch cs ih =>
    obtain ⟨hch, hcs⟩ := not_or.1 (List.mem_cons.not.1 h)
    rw [List.cons_append, cutArrow_cons (Ne.symm hch), ih hcs]

theorem arrow_notMem_regText (rd : RegIdx) : '<' ∉ regText rd ++ [' '] := by
  revert rd; decide

theorem trimBlanks_regText_blank (rd : RegIdx) : trimBlanks (regText rd ++ [' ']) = regText rd := by
  revert rd; decide

/-- A LOAD line with its payload, cut at the arrow. -/
theorem splitArrow_payload (rd : RegIdx) {hex : List Char} {m : Nat} (h : digitsValue 16 hex = some m) :
    splitArrow (regText rd ++ " <- 0x".toList ++ hex) = (regText rd, some ('0' :: 'x' :: hex)) := by
  have hcut : cutArrow (regText rd ++ [' '] ++ '<' :: '-' :: ' ' :: '0' :: 'x' :: hex) =
      (regText rd ++ [' '], some (' ' :: '0' :: 'x' :: hex)) := cutArrow_append (arrow_notMem_regText rd) _
  obtain ⟨ys, ch, d, hlast, hd⟩ := exists_last_digit h
  have htrim' : trimBlanks ('0' :: 'x' :: hex) = '0' :: 'x' :: hex :=
    trimBlanks_eq_self (ys := '0' :: 'x' :: ys) rfl rfl (by rw [hlast]; rfl) (isBlank_eq_false_of_digit hd)
  have htext : regText rd ++ " <- 0x".toList ++ hex = regText rd ++ [' '] ++ '<' :: '-' :: ' ' :: '0' :: 'x' :: hex := by
    simp
  rw [htext, splitArrow, hcut, trimBlanks_regText_blank, Option.map_some, trimBlanks_blank_cons rfl, htrim']

theorem asmMnemonic_load_payload (rd : RegIdx) {hex : List Char} {m : Nat} (hlen : hex.length = 32)
    (h : digitsValue 16 hex = some m) : asmMnemonic "LOAD".toList [regText rd ++ " <- 0x".toList ++ hex] =
      some [⟨encode (.load rd), some (BitVec.ofNat 128 m)⟩] := by
  have hpayload : parsePayload ('0' :: 'x' :: hex) = some (BitVec.ofNat 128 m) := by
    simp [parsePayload, hlen, h]
  rw [asmMnemonic_load, parseLoad]
  simp only [splitArrow_payload rd h, parseReg_regText, Option.bind_some, hpayload, Option.map_some]

end Sys2Proof.Machine
end

/-! ## Assembly lines: 30_encoding R87 -/

section
namespace Sys2Proof.Machine

/-- Settles O58: a line is its mnemonic and the parts between its commas; numbers are their digits from the left; and each row
of the table is a mnemonic with operands of its kinds. -/
theorem assemblyOfR87 : Obligations.AssemblyOfR87 := by
  refine ⟨fun name tail ops hname hchars hne hops htail => assembleLine_mnemonic hname hchars hne hops htail,
    fun comment => ⟨assembleLine_empty, assembleLine_comment comment⟩, fun cs i => parseReg_eq_some_iff,
    fun cs m h => parseImm_of_parseNumber h, fun cs => rfl, fun cs h => parseNumber_of_not_hex h,
    fun base v d cs ch => ⟨digitsValue_singleton base ch, fun hv hd => ?_⟩, by decide, by decide,
    fun a b c n imm h => ?_, fun rd hex m hlen h => asmMnemonic_load_payload rd hlen h⟩
  · have hne : cs ≠ [] := by
      rintro rfl
      cases hv
    rw [digitsValue_append_singleton hne, hv, hd]
    rfl
  · exact ⟨assemblesTo_load a, asm1_regText _ a, asm3_regText _ a b c, asm3_regText _ a b c, asmImm_regText _ a b h,
      asmImm_regText _ a b h, asm1_regText _ a, asm3_regText _ a b c, asm1_regText _ a, asm2_regText _ a b,
      asm1_regText _ a, asm1_regText _ a, asm2_regText _ a b⟩

end Sys2Proof.Machine
end
